-- ==== Sys2Proof/Word.lean ====
section
/-! DEFINITION. The two word types of the NX core (spec/00_scope.md rule R11). -/

namespace Sys2Proof

/-- The data path, every 8-bit register and every memory cell: 8 bits (R11). -/
abbrev Byte := BitVec 8

/-- Every register pair, PC, SP, IX, IY, IR, WZ, and every memory and port address: 16 bits (R11). -/
abbrev Word := BitVec 16

end Sys2Proof
end

