-- ==== Sys2Proof/Machine/Bits.lean ====
section
/-! DEFINITION. The bit notation of spec/00_scope.md rules R22 and R23, and the opcode field split of
spec/30_encoding.md rule R151. -/

namespace Sys2Proof

/-- `hi8(w) = w[15:8]` (R22). -/
def hi8 (w : Word) : Byte := w.extractLsb' 8 8

/-- `lo8(w) = w[7:0]` (R22). -/
def lo8 (w : Word) : Byte := w.extractLsb' 0 8

/-- `cat(h, l) = h*256 + l` (R22). -/
def cat (h l : Byte) : Word := h ++ l

/-- `sext_16(v)`: the two's complement extension of a signed byte (R23). -/
def sext16 (v : Byte) : Word := v.signExtend 16

/-- `x = op[7:6]` (R151). -/
def fieldX (op : Byte) : Nat := op.toNat / 64

/-- `y = op[5:3]` (R151). -/
def fieldY (op : Byte) : Nat := op.toNat / 8 % 8

/-- `z = op[2:0]` (R151). -/
def fieldZ (op : Byte) : Nat := op.toNat % 8

/-- `p = y >> 1` (R151). -/
def fieldP (op : Byte) : Nat := fieldY op / 2

/-- `q = y & 1` (R151). -/
def fieldQ (op : Byte) : Nat := fieldY op % 2

end Sys2Proof
end

