-- ==== Sys2Proof/Config.lean ====
section
/-! DEFINITION. What the platform or the part fixes and the core does not: the parameters of
spec/00_scope.md section 4 (R13 to R20) and the values the bus agent supplies. A value the spec leaves open
is `opaque`: no proof can see it, so a claim holds whatever it is. -/

namespace Sys2Proof

/-- The seven kinds of bus transaction (R104). -/
inductive BusKind where
  | fetch | read | write | ioRead | ioWrite | internal | ack
  deriving DecidableEq, Repr

/-- The interrupt mode, one of {0, 1, 2} (R72). -/
inductive IntMode where
  | im0 | im1 | im2
  deriving DecidableEq, Repr

/-- The registers that `restart()` leaves to the parameter `RESET_UNSPEC` (R15, R80). -/
inductive UnspecReg where
  | bc | de | hl | afAlt | bcAlt | deAlt | hlAlt | ix | iy | wz
  deriving DecidableEq, Repr

namespace Config

/-- Free value. `CONTEND(kind, addr, t)`: the extra ticks the bus adds to a transaction of this kind at this
address that starts when the tick counter reads `t` (R16; notes/assumptions/2). -/
opaque contend : BusKind → Word → Nat → Nat

/-- Free value. The byte the bus answers to the port read that is draw number `n` (R103;
notes/assumptions/3). -/
opaque portAnswer : (n : Nat) → (port : Word) → Byte

/-- Free value. The byte a bus other than plain memory answers to the memory read that is draw number `n` (R103;
notes/assumptions/5). -/
opaque memoryAnswer : (n : Nat) → (addr : Word) → Byte

/-- Free value. `IM2_VECTOR`: the byte the peripheral supplies at the mode-2 acceptance that is draw number
`n` (R14; notes/assumptions/4). -/
opaque im2Vector : (n : Nat) → Byte

/-- Free value. `RESET_UNSPEC`: the value a register takes at the restart that is draw number `n` (R15;
notes/assumptions/1). -/
opaque resetUnspec : (n : Nat) → UnspecReg → Word

/-- `OUT_C_ZERO_VALUE`: the byte `OUT (C),0` writes, 0x00 by default (R18; notes/assumptions/13). -/
def outCZeroValue : Byte := 0x00

/-- `IM_UNDEF_MODE`: the mode ED 4E and ED 6E set, 0 by default (R19; notes/assumptions/13). -/
def imUndefMode : IntMode := .im0

/-- What a byte of memory that nothing has written reads as. The spec leaves the initial content to the
platform (R100, R103). DESIGN CHOICE, notes/assumptions/5. -/
def unlistedByte : Byte := 0x00

end Config
end Sys2Proof
end

