-- ==== Sys2Proof/Syntax.lean ====
section
/-! DEFINITION. The instruction set as data: one constructor of `Instr` per row of spec/opcode_table.json.

The table has seven pages, and a row stands for the bytes that follow the page's own prefix. A prefix byte is a
row of its own: its share of the instruction is its one fetch ("4+": the rest is counted in the row it leads to,
R173), and the page it leads to is `Instr.selects` (Decode.lean). The row after it gives the rest of the
instruction. `Machine.step` runs the rows of one instruction in one step, as R153 says. -/

namespace Sys2Proof

/-- `r[k]` with k ≠ 6: an 8-bit register operand (R156). -/
inductive Reg8 where
  | b | c | d | e | h | l | a
  deriving DecidableEq, Repr

/-- `rp[k]`: a pair operand (R157). -/
inductive Rp where
  | bc | de | hl | sp
  deriving DecidableEq, Repr

/-- `rp2[k]`: the pair of PUSH and POP (R158). -/
inductive Rp2 where
  | bc | de | hl | af
  deriving DecidableEq, Repr

/-- The pair of `LD A,(rp)` and `LD (rp),A`: BC or DE (R203, R205). -/
inductive BcDe where
  | bc | de
  deriving DecidableEq, Repr

/-- `cc[k]`: a condition (R159). -/
inductive Cond where
  | nz | z | nc | c | po | pe | p | m
  deriving DecidableEq, Repr

/-- The four conditions `JR cc,e` encodes (R159). -/
inductive JrCond where
  | nz | z | nc | c
  deriving DecidableEq, Repr

/-- `alu[k]`: an 8-bit arithmetic or logic operation (R160). -/
inductive AluOp where
  | add | adc | sub | sbc | and | xor | or | cp
  deriving DecidableEq, Repr

/-- `rot[k]`: a shift or rotate (R161). -/
inductive RotOp where
  | rlc | rrc | rl | rr | sla | sra | sll | srl
  deriving DecidableEq, Repr

/-- An index register (R54). -/
inductive Index where
  | ix | iy
  deriving DecidableEq, Repr

/-- Which half of an index register: IXH or IXL (R54). -/
inductive Half where
  | high | low
  deriving DecidableEq, Repr

/-- `rp[k]` on a DD or FD page: HL is replaced by the index register (R157, R580). -/
inductive RpX where
  | bc | de | idx | sp
  deriving DecidableEq, Repr

/-- `r[k]` of `LD IXH/IXL,r`: H and L are replaced by the index halves (R591). -/
inductive Reg8X where
  | b | c | d | e | idxH | idxL | a
  deriving DecidableEq, Repr

/-- The destinations of `LD r,IXH/IXL`: B, C, D, E and A (R591). -/
inductive Reg8NoHL where
  | b | c | d | e | a
  deriving DecidableEq, Repr

/-- The seven decode pages (R152). -/
inductive Page where
  | base | cb | ed | dd | fd | ddcb | fdcb
  deriving DecidableEq, Repr

/-- One constructor per row of spec/opcode_table.json. `n`, `d` and `e` are the bytes of the instruction, `nn`
its word; `b`, `y`, `z`, `q` are fields of the opcode byte (R151, R154). -/
inductive Instr where
  /- Base page (30_encoding.md R163). -/
  /-- `NOP` (R330) -/
  | nop
  /-- `EX AF,AF'` (R229) -/
  | exAfAf
  /-- `DJNZ e` (R345) -/
  | djnz (e : Byte)
  /-- `JR e` (R343) -/
  | jr (e : Byte)
  /-- `JR cc,e` (R344) -/
  | jrCc (cc : JrCond) (e : Byte)
  /-- `LD rp,nn` (R212) -/
  | ldRpNn (p : Rp) (nn : Word)
  /-- `ADD HL,rp` (R290) -/
  | addHlRp (p : Rp)
  /-- `LD (BC),A` / `LD (DE),A` (R205) -/
  | ldIndRpA (p : BcDe)
  /-- `LD (nn),HL` (R215) -/
  | ldIndNnHl (nn : Word)
  /-- `LD (nn),A` (R206) -/
  | ldIndNnA (nn : Word)
  /-- `LD A,(BC)` / `LD A,(DE)` (R203) -/
  | ldAIndRp (p : BcDe)
  /-- `LD HL,(nn)` (R214) -/
  | ldHlIndNn (nn : Word)
  /-- `LD A,(nn)` (R204) -/
  | ldAIndNn (nn : Word)
  /-- `INC rp` (R291) -/
  | incRp (p : Rp)
  /-- `DEC rp` (R292) -/
  | decRp (p : Rp)
  /-- `INC r` (R272) -/
  | incR (r : Reg8)
  /-- `INC (HL)` (R273) -/
  | incIndHl
  /-- `DEC r` (R274) -/
  | decR (r : Reg8)
  /-- `DEC (HL)` (R275) -/
  | decIndHl
  /-- `LD r,n` (R201) -/
  | ldRN (r : Reg8) (n : Byte)
  /-- `LD (HL),n` (R208) -/
  | ldIndHlN (n : Byte)
  /-- `RLCA` (R280) -/
  | rlca
  /-- `RRCA` (R281) -/
  | rrca
  /-- `RLA` (R282) -/
  | rla
  /-- `RRA` (R283) -/
  | rra
  /-- `DAA` (R276) -/
  | daa
  /-- `CPL` (R277) -/
  | cpl
  /-- `SCF` (R278) -/
  | scf
  /-- `CCF` (R279) -/
  | ccf
  /-- `LD r,r'` (R200) -/
  | ldRR (r : Reg8) (r' : Reg8)
  /-- `LD r,(HL)` (R202) -/
  | ldRIndHl (r : Reg8)
  /-- `LD (HL),r` (R207) -/
  | ldIndHlR (r : Reg8)
  /-- `HALT` (R332) -/
  | halt
  /-- `ADD A,r` (R264) -/
  | addAR (r : Reg8)
  /-- `ADD A,(HL)` (R264) -/
  | addAIndHl
  /-- `ADD A,n` (R264) -/
  | addAN (n : Byte)
  /-- `ADC A,r` (R265) -/
  | adcAR (r : Reg8)
  /-- `ADC A,(HL)` (R265) -/
  | adcAIndHl
  /-- `ADC A,n` (R265) -/
  | adcAN (n : Byte)
  /-- `SUB r` (R266) -/
  | subR (r : Reg8)
  /-- `SUB (HL)` (R266) -/
  | subIndHl
  /-- `SUB n` (R266) -/
  | subN (n : Byte)
  /-- `SBC A,r` (R267) -/
  | sbcAR (r : Reg8)
  /-- `SBC A,(HL)` (R267) -/
  | sbcAIndHl
  /-- `SBC A,n` (R267) -/
  | sbcAN (n : Byte)
  /-- `AND r` (R268) -/
  | andR (r : Reg8)
  /-- `AND (HL)` (R268) -/
  | andIndHl
  /-- `AND n` (R268) -/
  | andN (n : Byte)
  /-- `XOR r` (R269) -/
  | xorR (r : Reg8)
  /-- `XOR (HL)` (R269) -/
  | xorIndHl
  /-- `XOR n` (R269) -/
  | xorN (n : Byte)
  /-- `OR r` (R270) -/
  | orR (r : Reg8)
  /-- `OR (HL)` (R270) -/
  | orIndHl
  /-- `OR n` (R270) -/
  | orN (n : Byte)
  /-- `CP r` (R271) -/
  | cpR (r : Reg8)
  /-- `CP (HL)` (R271) -/
  | cpIndHl
  /-- `CP n` (R271) -/
  | cpN (n : Byte)
  /-- `RET cc` (R350) -/
  | retCc (cc : Cond)
  /-- `POP rp2` (R217) -/
  | popRp2 (p : Rp2)
  /-- `RET` (R349) -/
  | ret
  /-- `EXX` (R230) -/
  | exx
  /-- `JP (HL)` (R342) -/
  | jpIndHl
  /-- `LD SP,HL` (R213) -/
  | ldSpHl
  /-- `JP cc,nn` (R341) -/
  | jpCcNn (cc : Cond) (nn : Word)
  /-- `JP nn` (R340) -/
  | jpNn (nn : Word)
  /-- the byte CB: the CB page follows (R153) -/
  | cbPrefix
  /-- `OUT (n),A` (R354) -/
  | outNA (n : Byte)
  /-- `IN A,(n)` (R353) -/
  | inAN (n : Byte)
  /-- `EX (SP),HL` (R232) -/
  | exIndSpHl
  /-- `EX DE,HL` (R231) -/
  | exDeHl
  /-- `DI` (R333) -/
  | di
  /-- `EI` (R335) -/
  | ei
  /-- `CALL cc,nn` (R348) -/
  | callCcNn (cc : Cond) (nn : Word)
  /-- `PUSH rp2` (R216) -/
  | pushRp2 (p : Rp2)
  /-- `CALL nn` (R347) -/
  | callNn (nn : Word)
  /-- the byte DD: the DD page follows (R153) -/
  | ddPrefix
  /-- the byte ED: the ED page follows (R153) -/
  | edPrefix
  /-- the byte FD: the FD page follows (R153) -/
  | fdPrefix
  /-- `RST p`, p = 8*y (R351) -/
  | rst (y : BitVec 3)
  /- CB page (R164). -/
  /-- `RLC r` (R402) -/
  | rlcR (r : Reg8)
  /-- `RLC (HL)` (R402) -/
  | rlcIndHl
  /-- `RRC r` (R403) -/
  | rrcR (r : Reg8)
  /-- `RRC (HL)` (R403) -/
  | rrcIndHl
  /-- `RL r` (R404) -/
  | rlR (r : Reg8)
  /-- `RL (HL)` (R404) -/
  | rlIndHl
  /-- `RR r` (R405) -/
  | rrR (r : Reg8)
  /-- `RR (HL)` (R405) -/
  | rrIndHl
  /-- `SLA r` (R406) -/
  | slaR (r : Reg8)
  /-- `SLA (HL)` (R406) -/
  | slaIndHl
  /-- `SRA r` (R407) -/
  | sraR (r : Reg8)
  /-- `SRA (HL)` (R407) -/
  | sraIndHl
  /-- `SLL r` (R408) -/
  | sllR (r : Reg8)
  /-- `SLL (HL)` (R408) -/
  | sllIndHl
  /-- `SRL r` (R409) -/
  | srlR (r : Reg8)
  /-- `SRL (HL)` (R409) -/
  | srlIndHl
  /-- `BIT b,r` (R410) -/
  | bitBR (b : BitVec 3) (r : Reg8)
  /-- `BIT b,(HL)` (R411) -/
  | bitBIndHl (b : BitVec 3)
  /-- `RES b,r` (R412) -/
  | resBR (b : BitVec 3) (r : Reg8)
  /-- `RES b,(HL)` (R412) -/
  | resBIndHl (b : BitVec 3)
  /-- `SET b,r` (R413) -/
  | setBR (b : BitVec 3) (r : Reg8)
  /-- `SET b,(HL)` (R413) -/
  | setBIndHl (b : BitVec 3)
  /- ED page (R165). -/
  /-- `IN r,(C)` (R450) -/
  | inRC (r : Reg8)
  /-- `IN (C)` (R451) -/
  | inC
  /-- `OUT (C),r` (R452) -/
  | outCR (r : Reg8)
  /-- `OUT (C),0` (R453) -/
  | outC0
  /-- `SBC HL,rp` (R463) -/
  | sbcHlRp (p : Rp)
  /-- `ADC HL,rp` (R462) -/
  | adcHlRp (p : Rp)
  /-- `LD (nn),rp` (R465) -/
  | ldIndNnRp (p : Rp) (nn : Word)
  /-- `LD rp,(nn)` (R464) -/
  | ldRpIndNn (p : Rp) (nn : Word)
  /-- `NEG`, any y: ED 44 and its mirrors (R454) -/
  | neg (y : BitVec 3)
  /-- `RETN`, y ≠ 1: ED 45 and its mirrors (R458) -/
  | retn (y : BitVec 3)
  /-- `RETI` (R457) -/
  | reti
  /-- `IM im[y]` (R459, R162) -/
  | im (y : BitVec 3)
  /-- `LD I,A` (R460) -/
  | ldIA
  /-- `LD R,A` (R461) -/
  | ldRA
  /-- `LD A,I` (R468) -/
  | ldAI
  /-- `LD A,R` (R469) -/
  | ldAR
  /-- `RRD` (R467) -/
  | rrd
  /-- `RLD` (R466) -/
  | rld
  /-- `NOP` at ED 77 (q = 0) and ED 7F (q = 1) (R470) -/
  | nopEd (q : BitVec 1)
  /-- `LDI` (R522) -/
  | ldi
  /-- `LDD` (R523) -/
  | ldd
  /-- `LDIR` (R524) -/
  | ldir
  /-- `LDDR` (R525) -/
  | lddr
  /-- `CPI` (R526) -/
  | cpi
  /-- `CPD` (R527) -/
  | cpd
  /-- `CPIR` (R528) -/
  | cpir
  /-- `CPDR` (R529) -/
  | cpdr
  /-- `INI` (R530) -/
  | ini
  /-- `IND` (R531) -/
  | ind
  /-- `INIR` (R532) -/
  | inir
  /-- `INDR` (R533) -/
  | indr
  /-- `OUTI` (R534) -/
  | outi
  /-- `OUTD` (R535) -/
  | outd
  /-- `OTIR` (R536) -/
  | otir
  /-- `OTDR` (R537) -/
  | otdr
  /-- `NONI`: an ED byte `op` without another row (R470) -/
  | noni (op : Byte)
  /- DD page (R166). -/
  /-- `ADD IX,rp` (R580) -/
  | addIxRp (p : RpX)
  /-- `LD IX,nn` (R579) -/
  | ldIxNn (nn : Word)
  /-- `LD (nn),IX` (R578) -/
  | ldIndNnIx (nn : Word)
  /-- `INC IX` (R581) -/
  | incIx
  /-- `INC IXH` / `INC IXL` (R593) -/
  | incIxHalf (h : Half)
  /-- `DEC IXH` / `DEC IXL` (R594) -/
  | decIxHalf (h : Half)
  /-- `LD IXH,n` / `LD IXL,n` (R592) -/
  | ldIxHalfN (h : Half) (n : Byte)
  /-- `LD IX,(nn)` (R577) -/
  | ldIxIndNn (nn : Word)
  /-- `DEC IX` (R582) -/
  | decIx
  /-- `INC (IX+d)` (R589) -/
  | incIndIxD (d : Byte)
  /-- `DEC (IX+d)` (R590) -/
  | decIndIxD (d : Byte)
  /-- `LD (IX+d),n` (R576) -/
  | ldIndIxDN (d : Byte) (n : Byte)
  /-- `LD r,IXH` / `LD r,IXL` (R591) -/
  | ldRIxHalf (r : Reg8NoHL) (h : Half)
  /-- `LD IXH,r` / `LD IXL,r` (R591) -/
  | ldIxHalfR (h : Half) (r : Reg8X)
  /-- `LD r,(IX+d)` (R574) -/
  | ldRIndIxD (r : Reg8) (d : Byte)
  /-- `LD (IX+d),r` (R575) -/
  | ldIndIxDR (d : Byte) (r : Reg8)
  /-- `alu[y] A,IXH` / `alu[y] A,IXL` (R595) -/
  | aluIxHalf (o : AluOp) (h : Half)
  /-- `alu[y] A,(IX+d)` (R588) -/
  | aluIndIxD (o : AluOp) (d : Byte)
  /-- `POP IX` (R585) -/
  | popIx
  /-- `EX (SP),IX` (R583) -/
  | exIndSpIx
  /-- `PUSH IX` (R584) -/
  | pushIx
  /-- `JP (IX)` (R586) -/
  | jpIndIx
  /-- `LD SP,IX` (R587) -/
  | ldSpIx
  /-- the byte CB after DD: the DDCB page follows (R153) -/
  | ddcbPrefix
  /-- a further DD (`ix`) or FD (`iy`) after DD: it replaces the selection (R596) -/
  | rePrefixDd (x : Index)
  /-- the byte ED after DD: the index selection is dropped (R596) -/
  | edAfterDd
  /-- DD before an opcode `op` with no DD row: its base row follows (R571) -/
  | ddIgnored (op : Byte)
  /- FD page (R166, with IY). -/
  /-- `ADD IY,rp` (R580) -/
  | addIyRp (p : RpX)
  /-- `LD IY,nn` (R579) -/
  | ldIyNn (nn : Word)
  /-- `LD (nn),IY` (R578) -/
  | ldIndNnIy (nn : Word)
  /-- `INC IY` (R581) -/
  | incIy
  /-- `INC IYH` / `INC IYL` (R593) -/
  | incIyHalf (h : Half)
  /-- `DEC IYH` / `DEC IYL` (R594) -/
  | decIyHalf (h : Half)
  /-- `LD IYH,n` / `LD IYL,n` (R592) -/
  | ldIyHalfN (h : Half) (n : Byte)
  /-- `LD IY,(nn)` (R577) -/
  | ldIyIndNn (nn : Word)
  /-- `DEC IY` (R582) -/
  | decIy
  /-- `INC (IY+d)` (R589) -/
  | incIndIyD (d : Byte)
  /-- `DEC (IY+d)` (R590) -/
  | decIndIyD (d : Byte)
  /-- `LD (IY+d),n` (R576) -/
  | ldIndIyDN (d : Byte) (n : Byte)
  /-- `LD r,IYH` / `LD r,IYL` (R591) -/
  | ldRIyHalf (r : Reg8NoHL) (h : Half)
  /-- `LD IYH,r` / `LD IYL,r` (R591) -/
  | ldIyHalfR (h : Half) (r : Reg8X)
  /-- `LD r,(IY+d)` (R574) -/
  | ldRIndIyD (r : Reg8) (d : Byte)
  /-- `LD (IY+d),r` (R575) -/
  | ldIndIyDR (d : Byte) (r : Reg8)
  /-- `alu[y] A,IYH` / `alu[y] A,IYL` (R595) -/
  | aluIyHalf (o : AluOp) (h : Half)
  /-- `alu[y] A,(IY+d)` (R588) -/
  | aluIndIyD (o : AluOp) (d : Byte)
  /-- `POP IY` (R585) -/
  | popIy
  /-- `EX (SP),IY` (R583) -/
  | exIndSpIy
  /-- `PUSH IY` (R584) -/
  | pushIy
  /-- `JP (IY)` (R586) -/
  | jpIndIy
  /-- `LD SP,IY` (R587) -/
  | ldSpIy
  /-- the byte CB after FD: the FDCB page follows (R153) -/
  | fdcbPrefix
  /-- a further DD (`ix`) or FD (`iy`) after FD: it replaces the selection (R596) -/
  | rePrefixFd (x : Index)
  /-- the byte ED after FD: the index selection is dropped (R596) -/
  | edAfterFd
  /-- FD before an opcode `op` with no FD row: its base row follows (R571) -/
  | fdIgnored (op : Byte)
  /- DDCB page (R167). -/
  /-- `RLC (IX+d)` (R621) -/
  | rlcIx (d : Byte)
  /-- `RLC (IX+d)->r` (R622) -/
  | rlcIxR (d : Byte) (r : Reg8)
  /-- `RRC (IX+d)` (R621) -/
  | rrcIx (d : Byte)
  /-- `RRC (IX+d)->r` (R622) -/
  | rrcIxR (d : Byte) (r : Reg8)
  /-- `RL (IX+d)` (R621) -/
  | rlIx (d : Byte)
  /-- `RL (IX+d)->r` (R622) -/
  | rlIxR (d : Byte) (r : Reg8)
  /-- `RR (IX+d)` (R621) -/
  | rrIx (d : Byte)
  /-- `RR (IX+d)->r` (R622) -/
  | rrIxR (d : Byte) (r : Reg8)
  /-- `SLA (IX+d)` (R621) -/
  | slaIx (d : Byte)
  /-- `SLA (IX+d)->r` (R622) -/
  | slaIxR (d : Byte) (r : Reg8)
  /-- `SRA (IX+d)` (R621) -/
  | sraIx (d : Byte)
  /-- `SRA (IX+d)->r` (R622) -/
  | sraIxR (d : Byte) (r : Reg8)
  /-- `SLL (IX+d)` (R621) -/
  | sllIx (d : Byte)
  /-- `SLL (IX+d)->r` (R622) -/
  | sllIxR (d : Byte) (r : Reg8)
  /-- `SRL (IX+d)` (R621) -/
  | srlIx (d : Byte)
  /-- `SRL (IX+d)->r` (R622) -/
  | srlIxR (d : Byte) (r : Reg8)
  /-- `BIT b,(IX+d)`, any z (R623) -/
  | bitIx (d : Byte) (b : BitVec 3) (z : BitVec 3)
  /-- `RES b,(IX+d)` (R624) -/
  | resIx (d : Byte) (b : BitVec 3)
  /-- `RES b,(IX+d)->r` (R625) -/
  | resIxR (d : Byte) (b : BitVec 3) (r : Reg8)
  /-- `SET b,(IX+d)` (R626) -/
  | setIx (d : Byte) (b : BitVec 3)
  /-- `SET b,(IX+d)->r` (R627) -/
  | setIxR (d : Byte) (b : BitVec 3) (r : Reg8)
  /- FDCB page (R167, with IY). -/
  /-- `RLC (IY+d)` (R621) -/
  | rlcIy (d : Byte)
  /-- `RLC (IY+d)->r` (R622) -/
  | rlcIyR (d : Byte) (r : Reg8)
  /-- `RRC (IY+d)` (R621) -/
  | rrcIy (d : Byte)
  /-- `RRC (IY+d)->r` (R622) -/
  | rrcIyR (d : Byte) (r : Reg8)
  /-- `RL (IY+d)` (R621) -/
  | rlIy (d : Byte)
  /-- `RL (IY+d)->r` (R622) -/
  | rlIyR (d : Byte) (r : Reg8)
  /-- `RR (IY+d)` (R621) -/
  | rrIy (d : Byte)
  /-- `RR (IY+d)->r` (R622) -/
  | rrIyR (d : Byte) (r : Reg8)
  /-- `SLA (IY+d)` (R621) -/
  | slaIy (d : Byte)
  /-- `SLA (IY+d)->r` (R622) -/
  | slaIyR (d : Byte) (r : Reg8)
  /-- `SRA (IY+d)` (R621) -/
  | sraIy (d : Byte)
  /-- `SRA (IY+d)->r` (R622) -/
  | sraIyR (d : Byte) (r : Reg8)
  /-- `SLL (IY+d)` (R621) -/
  | sllIy (d : Byte)
  /-- `SLL (IY+d)->r` (R622) -/
  | sllIyR (d : Byte) (r : Reg8)
  /-- `SRL (IY+d)` (R621) -/
  | srlIy (d : Byte)
  /-- `SRL (IY+d)->r` (R622) -/
  | srlIyR (d : Byte) (r : Reg8)
  /-- `BIT b,(IY+d)`, any z (R623) -/
  | bitIy (d : Byte) (b : BitVec 3) (z : BitVec 3)
  /-- `RES b,(IY+d)` (R624) -/
  | resIy (d : Byte) (b : BitVec 3)
  /-- `RES b,(IY+d)->r` (R625) -/
  | resIyR (d : Byte) (b : BitVec 3) (r : Reg8)
  /-- `SET b,(IY+d)` (R626) -/
  | setIy (d : Byte) (b : BitVec 3)
  /-- `SET b,(IY+d)->r` (R627) -/
  | setIyR (d : Byte) (b : BitVec 3) (r : Reg8)
  deriving DecidableEq, Repr

end Sys2Proof
end

