-- ==== Sys2Proof/Machine/Flags.lean ====
section
/-! DEFINITION. The flags of F (spec/10_state.md section 4), the constant flag tables (section 5, R62 to R70), and
every flag computation of files 41 to 47, as pure functions of bytes. -/

namespace Sys2Proof

/-! ## Flag bits (R58) -/

def flagC  : Byte := 0x01
def flagN  : Byte := 0x02
def flagPV : Byte := 0x04
def flag3  : Byte := 0x08
def flagH  : Byte := 0x10
def flag5  : Byte := 0x20
def flagZ  : Byte := 0x40
def flagS  : Byte := 0x80

/-- The mask of F.5 and F.3. -/
def flag53 : Byte := 0x28

/-- `v` when `b`, else 0. -/
def when (b : Bool) (v : Byte) : Byte := if b then v else 0

/-- Bit i of a byte: `v[i]` (R22). -/
def bit (v : Byte) (i : Nat) : Bool := v.getLsbD i

/-- F.C as a Bool. -/
def carryOf (f : Byte) : Bool := bit f 0

/-! ## Tables (R63 to R69) -/

/-- `SZ53[v]` (R63). -/
def sz53 (v : Byte) : Byte := (v &&& 0xA8) ||| when (v == 0) flagZ

/-- `PAR[v]`: PV when v has an even number of 1-bits (R64). -/
def par (v : Byte) : Byte := when (((List.range 8).countP (bit v)) % 2 == 0) flagPV

/-- `SZ53P[v] = SZ53[v] OR PAR[v]` (R65). -/
def sz53p (v : Byte) : Byte := sz53 v ||| par v

/-- `L8(a, b, r)` (R66). -/
def lookup8 (a b r : Byte) : Nat :=
  (((a &&& 0x88) >>> 3) ||| ((b &&& 0x88) >>> 2) ||| ((r &&& 0x88) >>> 1)).toNat

/-- `L16(a, b, r)` (R69). -/
def lookup16 (a b r : Word) : Nat :=
  (((a &&& 0x8800) >>> 11) ||| ((b &&& 0x8800) >>> 10) ||| ((r &&& 0x8800) >>> 9)).toNat

/-- `HC_ADD[k]` (R67). -/
def hcAdd : Nat → Byte
  | 1 | 2 | 3 | 7 => flagH
  | _ => 0

/-- `HC_SUB[k]` (R67). -/
def hcSub : Nat → Byte
  | 2 | 4 | 6 | 7 => flagH
  | _ => 0

/-- `OV_ADD[k]` (R68). -/
def ovAdd : Nat → Byte
  | 3 | 4 => flagPV
  | _ => 0

/-- `OV_SUB[k]` (R68). -/
def ovSub : Nat → Byte
  | 1 | 6 => flagPV
  | _ => 0

/-! ## Conditions (R159, R331) -/

/-- `Cond(k)`: a pure function of F. -/
def Cond.holds (cc : Cond) (f : Byte) : Bool :=
  match cc with
  | .nz => !bit f 6
  | .z => bit f 6
  | .nc => !bit f 0
  | .c => bit f 0
  | .po => !bit f 2
  | .pe => bit f 2
  | .p => !bit f 7
  | .m => bit f 7

/-- The condition of `JR cc,e` as one of the eight (R159). -/
def JrCond.cond : JrCond → Cond
  | .nz => .nz
  | .z => .z
  | .nc => .nc
  | .c => .c

/-! ## 8-bit arithmetic and logic (R261 to R263) -/

/-- `Add8(b, cin)` on a: the new A and F (R261). -/
def add8 (a b : Byte) (cin : Bool) : Byte × Byte :=
  let res := a.toNat + b.toNat + cin.toNat
  let r := BitVec.ofNat 8 res
  let k := lookup8 a b r
  (r, sz53 r ||| hcAdd (k % 8) ||| ovAdd (k / 16) ||| when (decide (res > 0xFF)) flagC)

/-- The result byte of `Sub8(b, cin, _)` on a (R262). -/
def subRes (a b : Byte) (cin : Bool) : Byte :=
  BitVec.ofInt 8 ((a.toNat : Int) - b.toNat - cin.toNat)

/-- The flags N, H, PV and C of `Sub8`, the `f` of R262. -/
def subNHVC (a b : Byte) (cin : Bool) : Byte :=
  let k := lookup8 a b (subRes a b cin)
  flagN ||| hcSub (k % 8) ||| ovSub (k / 16)
    ||| when (decide ((a.toNat : Int) - b.toNat - cin.toNat < 0)) flagC

/-- `Sub8(b, cin, 1)` on a: the new A and F (R262). -/
def sub8 (a b : Byte) (cin : Bool) : Byte × Byte :=
  let r := subRes a b cin
  (r, subNHVC a b cin ||| sz53 r)

/-- `Sub8(b, 0, 0)` on a: F alone, with F.5 and F.3 from b (R262, R271). -/
def cp8 (a b : Byte) : Byte :=
  subNHVC a b false ||| (sz53 (subRes a b false) &&& 0xC0) ||| (b &&& flag53)

/-- The eight operations `alu[k]` on A and F with the operand s: the new A and F (R264 to R271). -/
def aluResult (o : AluOp) (a f s : Byte) : Byte × Byte :=
  match o with
  | .add => add8 a s false
  | .adc => add8 a s (carryOf f)
  | .sub => sub8 a s false
  | .sbc => sub8 a s (carryOf f)
  | .and => (a &&& s, sz53p (a &&& s) ||| flagH)
  | .xor => (a ^^^ s, sz53p (a ^^^ s))
  | .or => (a ||| s, sz53p (a ||| s))
  | .cp => (a, cp8 a s)

/-- F after the increment of v: C is kept (R272). -/
def incFlags (v f : Byte) : Byte :=
  (f &&& flagC) ||| sz53 (v + 1) ||| when (v &&& 0x0F == 0x0F) flagH ||| when (v == 0x7F) flagPV

/-- F after the decrement of v: C is kept (R274). -/
def decFlags (v f : Byte) : Byte :=
  (f &&& flagC) ||| sz53 (v - 1) ||| when (v &&& 0x0F == 0x00) flagH ||| when (v == 0x80) flagPV ||| flagN

/-! ## Accumulator adjust, carry and rotates (R276 to R283) -/

/-- `DAA`: the new A and F (R276). -/
def daa (a f : Byte) : Byte × Byte :=
  let lo := (a &&& 0x0F).toNat
  let c := carryOf f || decide (a.toNat > 0x99)
  let diff := when c 0x60 ||| when (bit f 4 || decide (lo > 9)) 0x06
  let a' := if bit f 1 then a - diff else a + diff
  let h := if bit f 1 then bit f 4 && decide (lo < 6) else decide (lo > 9)
  (a', sz53p a' ||| when h flagH ||| (f &&& flagN) ||| when c flagC)

/-- F after `CPL`, with a the new A (R277). -/
def cplFlags (a f : Byte) : Byte := (f &&& 0xC5) ||| flagH ||| flagN ||| (a &&& flag53)

/-- F after `SCF`, with `SCF_CCF_XY = A` (R278). -/
def scfFlags (a f : Byte) : Byte := (f &&& 0xC4) ||| flagC ||| (a &&& flag53)

/-- F after `CCF`, with `SCF_CCF_XY = A` (R279). -/
def ccfFlags (a f : Byte) : Byte :=
  (f &&& 0xC4) ||| when (carryOf f) flagH ||| when (!carryOf f) flagC ||| (a &&& flag53)

/-- The result of a shift or rotate of v with the carry flag cin (R402 to R409; R280 to R283 for A). -/
def rotRes (o : RotOp) (cin : Bool) (v : Byte) : Byte :=
  match o with
  | .rlc => (v <<< 1) ||| when (bit v 7) 0x01
  | .rrc => (v >>> 1) ||| when (bit v 0) 0x80
  | .rl => (v <<< 1) ||| when cin 0x01
  | .rr => (v >>> 1) ||| when cin 0x80
  | .sla => v <<< 1
  | .sra => (v >>> 1) ||| (v &&& 0x80)
  | .sll => (v <<< 1) ||| 0x01
  | .srl => v >>> 1

/-- The bit a shift or rotate of v moves out: bit 7 to the left, bit 0 to the right (R402 to R409). -/
def rotOut (o : RotOp) (v : Byte) : Bool :=
  match o with
  | .rlc | .rl | .sla | .sll => bit v 7
  | .rrc | .rr | .sra | .srl => bit v 0

/-- `RotFlags(res, c)` (R401). -/
def rotFlags (res : Byte) (c : Bool) : Byte := sz53p res ||| when c flagC

/-- F after RLCA, RRCA, RLA or RRA, with a the new A (R280 to R283). -/
def rotAFlags (a f : Byte) (c : Bool) : Byte := (f &&& 0xC4) ||| (a &&& flag53) ||| when c flagC

/-! ## Bit instructions (R410 to R413, R623) -/

/-- `2^b`. -/
def bitMask (b : BitVec 3) : Byte := (1 : Byte) <<< b.toNat

/-- F after `BIT b` of v, with F.5 and F.3 from the byte xy (R410, R411, R623). -/
def bitFlags (b : BitVec 3) (v xy f : Byte) : Byte :=
  let t := bit v b.toNat
  (f &&& flagC) ||| flagH ||| (xy &&& flag53) ||| when (!t) 0x44 ||| when (b == 7 && t) flagS

/-- `v AND (0xFF XOR 2^b)` (R412). -/
def resBit (b : BitVec 3) (v : Byte) : Byte := v &&& (0xFF ^^^ bitMask b)

/-- `v OR 2^b` (R413). -/
def setBit (b : BitVec 3) (v : Byte) : Byte := v ||| bitMask b

/-! ## 16-bit arithmetic (R290, R462, R463) -/

/-- `ADD HL,rp` on a and b: the sum and F (R290). -/
def add16 (a b : Word) (f : Byte) : Word × Byte :=
  let res := a.toNat + b.toNat
  let r := BitVec.ofNat 16 res
  let k := lookup16 a b r
  (r, (f &&& 0xC4) ||| (hi8 r &&& flag53) ||| hcAdd (k % 8) ||| when (decide (res > 0xFFFF)) flagC)

/-- `ADC HL,rp` on a and b: the sum and F (R462). -/
def adc16 (a b : Word) (f : Byte) : Word × Byte :=
  let res := a.toNat + b.toNat + (carryOf f).toNat
  let r := BitVec.ofNat 16 res
  let k := lookup16 a b r
  (r, (hi8 r &&& 0xA8) ||| when (r == 0) flagZ ||| hcAdd (k % 8) ||| ovAdd (k / 16)
    ||| when (decide (res > 0xFFFF)) flagC)

/-- `SBC HL,rp` on a and b: the difference and F (R463). -/
def sbc16 (a b : Word) (f : Byte) : Word × Byte :=
  let res : Int := (a.toNat : Int) - b.toNat - (carryOf f).toNat
  let r := BitVec.ofInt 16 res
  let k := lookup16 a b r
  (r, (hi8 r &&& 0xA8) ||| when (r == 0) flagZ ||| hcSub (k % 8) ||| ovSub (k / 16) ||| flagN
    ||| when (decide (res < 0)) flagC)

/-! ## ED-page flags -/

/-- F from a byte read from a port, or after RLD and RRD: C is kept (R450, R466). -/
def inFlags (v f : Byte) : Byte := (f &&& flagC) ||| sz53p v

/-- F after `LD A,I` and `LD A,R`: PV is IFF2, C is kept (R468, R469). -/
def ldAirFlags (a f : Byte) (iff2 : Bool) : Byte := (f &&& flagC) ||| sz53 a ||| when iff2 flagPV

/-- `XYBlock(n)`: F.3 is n[3] and F.5 is n[1] (R538). -/
def xyBlock (n : Byte) : Byte := when (bit n 3) flag3 ||| when (bit n 1) flag5

/-- F after an LD-kind iteration, with n = v + A and the new BC (R522). -/
def ldBlockFlags (n f : Byte) (bc : Word) : Byte :=
  (f &&& 0xC1) ||| when (bc != 0) flagPV ||| xyBlock n

/-- F after a CP-kind iteration on a and v, with the new BC (R526). -/
def cpBlockFlags (a v f : Byte) (bc : Word) : Byte :=
  let res := a - v
  let h := hcSub (lookup8 a v res % 8)
  let n := res - when (h != 0) 1
  (f &&& flagC) ||| flagN ||| h ||| (sz53 res &&& 0xC0) ||| when (bc != 0) flagPV ||| xyBlock n

/-- `IOFlags(v, k)`, with b the B after its decrement (R538). -/
def ioFlags (b v : Byte) (k : Nat) : Byte :=
  sz53 b ||| when (bit v 7) flagN ||| when (decide (k > 255)) (flagH ||| flagC)
    ||| par (BitVec.ofNat 8 (k % 8) ^^^ b)

end Sys2Proof
end

