-- ==== Sys2Proof/Machine/State.lean ====
section
/-! DEFINITION. The state of the NX core, element by element as spec/10_state.md rule R50 lists it, the bus it is
connected to (R103), and the reset state (R80, R700). Plain data. -/

namespace Sys2Proof.Machine

/-- The plain-memory bus's bytes by address (R100, R103): addresses strictly rising, and no entry equal to what an
unlisted address reads as (`Memory.wf`, Ops.lean). -/
abbrev Memory := List Host.Cell

/-- The bus instance (R103): plain memory, whose answer to a memory read is the byte last written, or any bus, whose
every answer is a draw (spec/93_implementation_defined.md I3; notes/assumptions/5). -/
inductive BusAgent where
  | plainMemory | anyBus
  deriving DecidableEq, Repr

/-- One bus transaction as the bus agent sees it (R104): its kind, the address on the bus, the byte it moves
(none for an internal or acknowledge cycle), its base ticks, and what T read when it started. -/
structure BusEvent where
  kind  : BusKind
  addr  : Word
  data  : Option Byte
  ticks : Nat
  start : Nat
  deriving DecidableEq, Repr

/-- The machine's state. Pairs are 16-bit values; their halves are reached by accessors (R51; Operands.lean). -/
@[ext]
structure State where
  /-- A (high) and F (low). -/
  af : Word
  /-- B and C. -/
  bc : Word
  /-- D and E. -/
  de : Word
  /-- H and L. -/
  hl : Word
  /-- AF', the shadow of AF (R52). -/
  afAlt : Word
  /-- BC'. -/
  bcAlt : Word
  /-- DE'. -/
  deAlt : Word
  /-- HL'. -/
  hlAlt : Word
  /-- IXH and IXL (R54). -/
  ix : Word
  /-- IYH and IYL (R54). -/
  iy : Word
  /-- The stack pointer (R55). -/
  sp : Word
  /-- The program counter (R56). -/
  pc : Word
  /-- I (high, the mode-2 table page) and R (low, the refresh counter). -/
  ir : Word
  /-- WZ, also called MEMPTR (R76). -/
  wz : Word
  /-- The maskable-interrupt enable (R71). -/
  iff1 : Bool
  /-- The backup copy of IFF1 (R71). -/
  iff2 : Bool
  /-- The interrupt mode (R72). -/
  im : IntMode
  /-- HALTED (R73). -/
  halted : Bool
  /-- EI_BLOCK, the one-step deferral EI sets (R74). -/
  eiBlock : Bool
  /-- NMI_PEND, the request latch of the NMI (R75). -/
  nmiPend : Bool
  /-- IRQ_PEND, the request latch of the maskable interrupt (R75). -/
  irqPend : Bool
  /-- T, the tick counter: unbounded, and the core only adds to it (R21, R78). -/
  t : Nat
  /-- The bytes written to memory over the bus (R100, R103). -/
  mem : Memory
  /-- The model's own field: which bus the core is connected to (R103). No operation changes it
  (notes/assumptions/5). -/
  agent : BusAgent
  /-- The model's own field: the transactions the bus agent has seen, newest first (R119). It is how a write to a
  port is visible. No instruction reads it (notes/assumptions/6). -/
  bus : List BusEvent
  /-- The model's own field: how many answers the bus agent and the restarts have given so far; every fetch, memory
  read and port read is one. A free value is a `Config` constant applied to it (notes/assumptions/3). -/
  draws : Nat
  deriving DecidableEq, Repr

/-- Why a step stops. The core itself has no fault state (R650). -/
inductive Fault where
  /-- Raised by `step` alone: the instruction's prefixes do not end. In plain memory every byte is then DD or FD and the
  hardware's step never returns (R596, R708; spec/93_implementation_defined.md I14, `stuck`). On any other bus the model
  gives up after 65,537 such answers (I14, fuel-bounded; notes/assumptions/10). Safe: the model stops where the hardware
  hangs or goes on. -/
  | endlessPrefixes
  deriving DecidableEq, Repr

/-- Why something is refused. -/
inductive Refusal where
  /-- Raised by an arm of `exec` whose instruction has no meaning yet; no arm does. Safe. -/
  | notModelled (mnemonic : String)
  /-- Raised by `step` if the decoder found bytes missing; it is given a whole instruction's bytes, so it never is
  (R168). Safe. -/
  | undecodable
  /-- Raised by the host accessor that writes IM, for a value outside 0, 1, 2 (R79; I12, `refuse`). Safe. -/
  | interruptModeOutOfRange
  /-- Raised by a host accessor write to a request latch, which only `interrupt()` and `nmi()` reach (R79; I13,
  `refuse`). Safe. -/
  | latchHasNoAccessor
  deriving DecidableEq, Repr

/-- What an instruction answers. -/
abbrev Result := Host.Outcome State Fault Refusal

/-- The machine right after `restart()`, which is also its state at construction (R80, R700, R701). BC, DE, HL, the
shadow pairs, IX, IY and WZ are `RESET_UNSPEC`, a draw that no proof can see (notes/assumptions/1). T is the
caller's; it starts at 0 here (notes/assumptions/7). Memory lists nothing, and the bus is plain memory
(notes/assumptions/5). -/
def State.reset : State where
  af := 0xFFFF
  bc := Config.resetUnspec 0 .bc
  de := Config.resetUnspec 0 .de
  hl := Config.resetUnspec 0 .hl
  afAlt := Config.resetUnspec 0 .afAlt
  bcAlt := Config.resetUnspec 0 .bcAlt
  deAlt := Config.resetUnspec 0 .deAlt
  hlAlt := Config.resetUnspec 0 .hlAlt
  ix := Config.resetUnspec 0 .ix
  iy := Config.resetUnspec 0 .iy
  sp := 0xFFFF
  pc := 0x0000
  ir := 0x0000
  wz := Config.resetUnspec 0 .wz
  iff1 := false
  iff2 := false
  im := .im0
  halted := false
  eiBlock := false
  nmiPend := false
  irqPend := false
  t := 0
  mem := []
  agent := .plainMemory
  bus := []
  draws := 1

end Sys2Proof.Machine
end

