-- ==== Sys2Proof/Machine/Operands.lean ====
section
/-! DEFINITION. Reading and writing the register operands: the halves of the pairs (spec/10_state.md R51) and the
operand tables r, rp and rp2 (spec/30_encoding.md R156 to R158). Every register has one home, the pair of State. -/

namespace Sys2Proof.Machine

/-- A pair with its high half replaced (R51). -/
def withHi (w : Word) (v : Byte) : Word := cat v (lo8 w)

/-- A pair with its low half replaced (R51). -/
def withLo (w : Word) (v : Byte) : Word := cat (hi8 w) v

/-- A. -/
def State.a (s : State) : Byte := hi8 s.af

/-- F. -/
def State.f (s : State) : Byte := lo8 s.af

/-- B. -/
def State.b (s : State) : Byte := hi8 s.bc

/-- C. -/
def State.c (s : State) : Byte := lo8 s.bc

/-- I. -/
def State.i (s : State) : Byte := hi8 s.ir

/-- R. -/
def State.r (s : State) : Byte := lo8 s.ir

/-- `A <- v`. -/
def State.setA (s : State) (v : Byte) : State := { s with af := withHi s.af v }

/-- `F <- v`. -/
def State.setF (s : State) (v : Byte) : State := { s with af := withLo s.af v }

/-- `A <- a; F <- f`, the pair an ALU operation answers. -/
def State.setAF (s : State) (af : Byte × Byte) : State := { s with af := cat af.1 af.2 }

/-- `B <- v`. -/
def State.setB (s : State) (v : Byte) : State := { s with bc := withHi s.bc v }

/-- Reading `r[k]`, k ≠ 6 (R156). -/
def State.reg (s : State) : Reg8 → Byte
  | .b => hi8 s.bc
  | .c => lo8 s.bc
  | .d => hi8 s.de
  | .e => lo8 s.de
  | .h => hi8 s.hl
  | .l => lo8 s.hl
  | .a => hi8 s.af

/-- Writing `r[k]`, k ≠ 6: exactly the 8 bits of the half (R51, R156). -/
def State.setReg (s : State) (r : Reg8) (v : Byte) : State :=
  match r with
  | .b => { s with bc := withHi s.bc v }
  | .c => { s with bc := withLo s.bc v }
  | .d => { s with de := withHi s.de v }
  | .e => { s with de := withLo s.de v }
  | .h => { s with hl := withHi s.hl v }
  | .l => { s with hl := withLo s.hl v }
  | .a => { s with af := withHi s.af v }

/-- Reading `rp[k]` (R157). -/
def State.rp (s : State) : Rp → Word
  | .bc => s.bc
  | .de => s.de
  | .hl => s.hl
  | .sp => s.sp

/-- Writing `rp[k]` (R157). -/
def State.setRp (s : State) (p : Rp) (w : Word) : State :=
  match p with
  | .bc => { s with bc := w }
  | .de => { s with de := w }
  | .hl => { s with hl := w }
  | .sp => { s with sp := w }

/-- Reading `rp2[k]` (R158). -/
def State.rp2 (s : State) : Rp2 → Word
  | .bc => s.bc
  | .de => s.de
  | .hl => s.hl
  | .af => s.af

/-- Writing `rp2[k]` (R158). -/
def State.setRp2 (s : State) (p : Rp2) (w : Word) : State :=
  match p with
  | .bc => { s with bc := w }
  | .de => { s with de := w }
  | .hl => { s with hl := w }
  | .af => { s with af := w }

/-- The pair of `LD A,(rp)` and `LD (rp),A` (R203, R205). -/
def State.bcDe (s : State) : BcDe → Word
  | .bc => s.bc
  | .de => s.de

/-- IX or IY (R54). -/
def State.idx (s : State) : Index → Word
  | .ix => s.ix
  | .iy => s.iy

/-- Writing IX or IY (R54). -/
def State.setIdx (s : State) (x : Index) (w : Word) : State :=
  match x with
  | .ix => { s with ix := w }
  | .iy => { s with iy := w }

/-- IXH, IXL, IYH or IYL (R54). -/
def State.half (s : State) (x : Index) : Half → Byte
  | .high => hi8 (s.idx x)
  | .low => lo8 (s.idx x)

/-- Writing an index half: the other half is kept (R51). -/
def State.setHalf (s : State) (x : Index) (h : Half) (v : Byte) : State :=
  match h with
  | .high => s.setIdx x (withHi (s.idx x) v)
  | .low => s.setIdx x (withLo (s.idx x) v)

/-- Reading `rp[k]` on a DD or FD page (R157). -/
def State.rpX (s : State) (x : Index) : RpX → Word
  | .bc => s.bc
  | .de => s.de
  | .idx => s.idx x
  | .sp => s.sp

/-- Reading `r[k]` with H and L replaced by the index halves (R591). -/
def State.regX (s : State) (x : Index) : Reg8X → Byte
  | .b => hi8 s.bc
  | .c => lo8 s.bc
  | .d => hi8 s.de
  | .e => lo8 s.de
  | .idxH => s.half x .high
  | .idxL => s.half x .low
  | .a => hi8 s.af

/-- A destination of `LD r,IXH/IXL` as one of `r[k]` (R591). -/
def regNoHL : Reg8NoHL → Reg8
  | .b => .b
  | .c => .c
  | .d => .d
  | .e => .e
  | .a => .a

/-- The effective address of an (IX+d) operand, `u16(IX + sext_16(d))` (R573). -/
def State.ea (s : State) (x : Index) (d : Byte) : Word := s.idx x + sext16 d

end Sys2Proof.Machine
end

