-- ==== Sys2Proof/Machine/Ops.lean ====
section
/-! DEFINITION. The shared operations: plain memory, the bus's answers, the bus transactions with their ticks (spec/20_memory.md
section 2), the stack (R210, R211), and taking and leaving an interrupt (spec/60_exceptions.md section 4). A meaning
is a chain of these in the order of its rule's Cycles line. -/

namespace Sys2Proof.Machine

/-! ## Plain memory (R103) -/

/-- The byte at an address: the one listed first for it, or what an unlisted address reads as. -/
def Memory.read : Memory → Nat → Byte
  | [], _ => Config.unlistedByte
  | (b, v) :: m, a => if b = a then v else Memory.read m a

/-- The memory without its entries for an address. -/
def Memory.erase : Memory → Nat → Memory
  | [], _ => []
  | (b, v) :: m, a => if b = a then Memory.erase m a else (b, v) :: Memory.erase m a

/-- The memory with an entry put in its place by address. -/
def Memory.insert : Memory → Nat → Byte → Memory
  | [], a, v => [(a, v)]
  | (b, w) :: m, a, v => if a < b then (a, v) :: (b, w) :: m else (b, w) :: Memory.insert m a v

/-- A byte written: writing what an unlisted address reads as leaves no entry. -/
def Memory.write (m : Memory) (a : Nat) (v : Byte) : Memory :=
  if v = Config.unlistedByte then m.erase a else (m.erase a).insert a v

/-- The canonical form: addresses below 65,536 and strictly rising, no entry equal to what an unlisted address
reads as. Equal memories are then equal lists. -/
def Memory.wf : Memory → Bool
  | [] => true
  | (a, v) :: m => decide (a < 65536) && v != Config.unlistedByte && m.all (fun c => decide (a < c.1)) && Memory.wf m

/-! ## The bus's answers (R103) -/

/-- The byte a bus answers to a memory read at an address as its answer number `n`: the byte plain memory holds, or on
any other bus the draw of that number. -/
def memoryReply (g : BusAgent) (m : Memory) (n : Nat) (a : Word) : Byte :=
  match g with
  | .plainMemory => m.read a.toNat
  | .anyBus => Config.memoryAnswer n a

/-- The byte the bus answers to a memory read at an address, after `k` further answers and no write. -/
def State.reply (s : State) (k : Nat) (a : Word) : Byte := memoryReply s.agent s.mem (s.draws + k) a

/-- The byte the bus answers if the next answer is to a memory read at this address. -/
def State.byteAt (s : State) (a : Word) : Byte := s.reply 0 a

/-- The word that two byte reads at an address answer: low byte at `a` first, then high byte at `u16(a + 1)` (R108,
R114, R116). -/
def State.wordAt (s : State) (a : Word) : Word := cat (s.reply 1 (a + 1)) (s.reply 0 a)

/-- The byte the bus answers if the next answer is to a port read: always a draw (R103, R109). -/
def State.portByte (s : State) (port : Word) : Byte := Config.portAnswer s.draws port

/-! ## Bus transactions (R104 to R112) -/

/-- The answers a transaction takes from the bus: one for a fetch, a memory read or a port read. -/
def answersOf : BusKind → Nat
  | .fetch => 1
  | .read => 1
  | .ioRead => 1
  | .write => 0
  | .ioWrite => 0
  | .internal => 0
  | .ack => 0

/-- One transaction of base cost `n`: T rises by `n + CONTEND(kind, addr, T)` with T as it stands at its start
(R104). -/
def State.transact (s : State) (k : BusKind) (a : Word) (n : Nat) (v : Option Byte) : State :=
  { s with
    t := s.t + (n + Config.contend k a s.t)
    bus := ⟨k, a, v, n, s.t⟩ :: s.bus
    draws := s.draws + answersOf k }

/-- `R <- (R AND 0x80) OR ((R + 1) AND 0x7F)`: bit 7 kept, bits 6..0 count (R105). -/
def nextR (r : Byte) : Byte := (r &&& 0x80) ||| ((r + 1) &&& 0x7F)

/-- The refresh count of one M1 cycle (R105). -/
def State.refresh (s : State) : State := { s with ir := withLo s.ir (nextR (lo8 s.ir)) }

/-- `Fetch(addr)`: 4 ticks, and R counts (R105). -/
def State.fetchAt (s : State) (a : Word) : State := (s.transact .fetch a 4 (some (s.byteAt a))).refresh

/-- The effect of `MemRead(addr, 1)` on the machine: 3 ticks (R106). Its answer is `byteAt`. -/
def State.readAt (s : State) (a : Word) : State := s.transact .read a 3 (some (s.byteAt a))

/-- `MemWrite(addr, 1, v)`: 3 ticks (R107). -/
def State.writeAt (s : State) (a : Word) (v : Byte) : State :=
  { s.transact .write a 3 (some v) with mem := s.mem.write a.toNat v }

/-- The effect of `MemRead(addr, 2)`: two byte reads, low address first (R108). Its answer is `wordAt`. -/
def State.readWordAt (s : State) (a : Word) : State := (s.readAt a).readAt (a + 1)

/-- `MemWrite(addr, 2, w)`: the low byte at `a`, then the high byte at `u16(a + 1)` (R108). -/
def State.writeWordAt (s : State) (a w : Word) : State := (s.writeAt a (lo8 w)).writeAt (a + 1) (hi8 w)

/-- The effect of `IoRead(port)`: 4 ticks (R109). Its answer is `portByte`. -/
def State.ioReadAt (s : State) (port : Word) : State := s.transact .ioRead port 4 (some (s.portByte port))

/-- `IoWrite(port, v)`: 4 ticks (R110). The bus agent sees the byte in `bus`. -/
def State.ioWriteAt (s : State) (port : Word) (v : Byte) : State := s.transact .ioWrite port 4 (some v)

/-- `Internal(addr, n)`: n single ticks, each with its own contention, in sequence (R111). -/
def State.internal (s : State) (a : Word) : Nat → State
  | 0 => s
  | n + 1 => (s.transact .internal a 1 none).internal a n

/-- `Ack(n)` at IR, counting R as a fetch does (R112). IR is read before R counts, as for a fetch's address
(notes/assumptions/8). -/
def State.ack (s : State) (n : Nat) : State := (s.transact .ack s.ir n none).refresh

/-! ## The instruction's own bytes (R56, R155) -/

/-- The M1 fetch of a prefix or opcode byte at PC, and PC + 1. -/
def State.opFetch (s : State) : State := { s.fetchAt s.pc with pc := s.pc + 1 }

/-- The read of an operand byte at PC, and PC + 1: `Imm8()`, whose value the decoder has put into the instruction
(R155, R706). -/
def State.operand (s : State) : State := { s.readAt s.pc with pc := s.pc + 1 }

/-- The opcode fetch and the displacement of an (IX+d) form, `Internal(PC_of_d, n)`, and `WZ <- ea` (R573). -/
def State.indexed (s : State) (x : Index) (d : Byte) : State :=
  let s := s.opFetch.operand
  let s := s.internal (s.pc - 1) 5
  { s with wz := s.ea x d }

/-! ## Control transfer and the stack (R210, R211) -/

/-- `PC <- a; WZ <- a`. -/
def State.goto (s : State) (a : Word) : State := { s with pc := a, wz := a }

/-- One write of a push: `SP <- u16(SP - 1); MemWrite(SP, 1, v)` (R210). -/
def State.pushByte (s : State) (v : Byte) : State := { s with sp := s.sp - 1 }.writeAt (s.sp - 1) v

/-- `Push(w)`: the high byte first (R210). -/
def State.push (s : State) (w : Word) : State := (s.pushByte (hi8 w)).pushByte (lo8 w)

/-- One read of a pop: `MemRead(SP, 1); SP <- u16(SP + 1)` (R211). -/
def State.popByte (s : State) : State := { s.readAt s.sp with sp := s.sp + 1 }

/-- The effect of `Pop()` (R211). Its answer is `wordAt SP`. -/
def State.pop (s : State) : State := s.popByte.popByte

/-- `PC <- Pop(); WZ <- PC`, the end of every return (R349). -/
def State.popPc (s : State) : State := s.pop.goto (s.wordAt s.sp)

/-- The read-modify-write of a memory byte: read, one internal tick, write (R400). -/
def State.modifyAt (s : State) (a : Word) (g : Byte → Byte) : State :=
  ((s.readAt a).internal a 1).writeAt a (g (s.byteAt a))

/-- `(lo, hi) <- (SP); (SP) <- w` with the cycles of EX (SP),HL after its fetches (R232). -/
def State.exchangeTop (s : State) (w : Word) : State :=
  let s := ((s.readAt s.sp).readAt (s.sp + 1)).internal (s.sp + 1) 1
  ((s.writeAt (s.sp + 1) (hi8 w)).writeAt s.sp (lo8 w)).internal s.sp 2

/-! ## Taking an interrupt, and the return (R653 to R662) -/

/-- `LeaveHalt()` (R660). -/
def State.leaveHalt (s : State) : State :=
  if s.halted then { s with halted := false, pc := s.pc + 1 } else s

/-- What the NMI and IRQ acceptances share: the halt ends, the acknowledge of `n` ticks, IFF1 cleared and IFF2 set as
given, and PC pushed once (R657, R658; 90_conflicts.md C4). -/
def State.takeInterrupt (s : State) (n : Nat) (iff2 : Bool) : State :=
  let s := s.leaveHalt.ack n
  { s with iff1 := false, iff2 := iff2 }.push s.pc

/-- `AcceptNMI()` (R657). -/
def State.acceptNmi (s : State) : State :=
  ({ s with nmiPend := false, eiBlock := false }.takeInterrupt 5 s.iff1).goto 0x0066

/-- The mode-2 tail of an IRQ acceptance: the vector is drawn and the target read from the table at
`cat(I, vector)` (R659). -/
def State.vectorJump (s : State) : State :=
  let tab := cat (hi8 s.ir) (Config.im2Vector s.draws)
  let s := { s with draws := s.draws + 1 }
  (s.readWordAt tab).goto (s.wordAt tab)

/-- `AcceptIRQ()`: modes 0 and 1 go to 0x0038 (`IM0_ACTION = RST 38h`, R13), mode 2 through the table (R658,
R659). -/
def State.acceptIrq (s : State) : State :=
  let s' := { s with irqPend := false }.takeInterrupt 7 false
  match s.im with
  | .im0 => s'.goto 0x0038
  | .im1 => s'.goto 0x0038
  | .im2 => s'.vectorJump

/-- An IRQ is recognised: pending, enabled and not deferred by EI; the NMI is looked at before it (R655). -/
def State.irqRecognised (s : State) : Bool := s.irqPend && s.iff1 && !s.eiBlock

/-- The return of RETI and RETN: `IFF1 <- IFF2; PC <- Pop(); WZ <- PC` (R457, R458). -/
def State.returnFromInterrupt (s : State) : State := { s with iff1 := s.iff2 }.popPc

/-- `HaltedCycle()`: a fetch at PC, the byte discarded (R661). -/
def State.haltedCycle (s : State) : State := s.fetchAt s.pc

end Sys2Proof.Machine
end

