-- ==== Sys2Proof/Machine/Alu.lean ====
section
/-! DEFINITION. Base-page arithmetic and logic (spec/41_base_alu.md). -/

namespace Sys2Proof.Machine

/-- The eight 8-bit operations on A with the operand v: A and F are written, A by every one but CP (R264 to R271). -/
def State.alu (s : State) (o : AluOp) (v : Byte) : State := s.setAF (aluResult o s.a s.f v)

/-- `op r` (R260). -/
def State.aluReg (s : State) (o : AluOp) (r : Reg8) : State := s.opFetch.alu o (s.reg r)

/-- `op (HL)` (R260). -/
def State.aluIndHl (s : State) (o : AluOp) : State :=
  let s := s.opFetch
  (s.readAt s.hl).alu o (s.byteAt s.hl)

/-- `op n` (R260). -/
def State.aluImm (s : State) (o : AluOp) (n : Byte) : State := s.opFetch.operand.alu o n

/-- `v + 1` written back by `put`, with F (R272). -/
def State.incBy (s : State) (v : Byte) (put : State → Byte → State) : State := put (s.setF (incFlags v s.f)) (v + 1)

/-- `v - 1` written back by `put`, with F (R274). -/
def State.decBy (s : State) (v : Byte) (put : State → Byte → State) : State := put (s.setF (decFlags v s.f)) (v - 1)

/-- The increment of a memory byte: read, one internal tick, write, with F (R273, R589). So INC (HL) takes the 11 ticks of its
Cycles line, where the summary of R713 says 10 (notes/assumptions/18). -/
def State.incMem (s : State) (a : Word) : State := (s.modifyAt a (· + 1)).setF (incFlags (s.byteAt a) s.f)

/-- The decrement of a memory byte, with the flags of DEC (R275, R590; notes/assumptions/15). DEC (HL) takes 11 ticks, as
INC (HL) does (notes/assumptions/18). -/
def State.decMem (s : State) (a : Word) : State := (s.modifyAt a (· - 1)).setF (decFlags (s.byteAt a) s.f)

/-- RLCA, RRCA, RLA, RRA: A is rotated, and S, Z and PV are kept (R280 to R283). -/
def State.rotA (s : State) (o : RotOp) : State :=
  let s := s.opFetch
  let r := rotRes o (carryOf s.f) s.a
  s.setAF (r, rotAFlags r s.f (rotOut o s.a))

/-- `Internal(IR, 7)` and the 16-bit sum of w and v with `WZ <- w + 1`: F is written, and the sum is put by the caller
(R290, R580). -/
def State.addPair (s : State) (w v : Word) : State :=
  let s := s.internal s.ir 7
  { s.setF (add16 w v s.f).2 with wz := w + 1 }

/-- `ADD A,r` (R264). -/
def execAddAR (r : Reg8) (s : State) : Result := .next (s.aluReg .add r)

/-- `ADD A,(HL)` (R264). -/
def execAddAIndHl (s : State) : Result := .next (s.aluIndHl .add)

/-- `ADD A,n` (R264). -/
def execAddAN (n : Byte) (s : State) : Result := .next (s.aluImm .add n)

/-- `ADC A,r` (R265). -/
def execAdcAR (r : Reg8) (s : State) : Result := .next (s.aluReg .adc r)

/-- `ADC A,(HL)` (R265). -/
def execAdcAIndHl (s : State) : Result := .next (s.aluIndHl .adc)

/-- `ADC A,n` (R265). -/
def execAdcAN (n : Byte) (s : State) : Result := .next (s.aluImm .adc n)

/-- `SUB r` (R266). -/
def execSubR (r : Reg8) (s : State) : Result := .next (s.aluReg .sub r)

/-- `SUB (HL)` (R266). -/
def execSubIndHl (s : State) : Result := .next (s.aluIndHl .sub)

/-- `SUB n` (R266). -/
def execSubN (n : Byte) (s : State) : Result := .next (s.aluImm .sub n)

/-- `SBC A,r` (R267). -/
def execSbcAR (r : Reg8) (s : State) : Result := .next (s.aluReg .sbc r)

/-- `SBC A,(HL)` (R267). -/
def execSbcAIndHl (s : State) : Result := .next (s.aluIndHl .sbc)

/-- `SBC A,n` (R267). -/
def execSbcAN (n : Byte) (s : State) : Result := .next (s.aluImm .sbc n)

/-- `AND r` (R268). -/
def execAndR (r : Reg8) (s : State) : Result := .next (s.aluReg .and r)

/-- `AND (HL)` (R268). -/
def execAndIndHl (s : State) : Result := .next (s.aluIndHl .and)

/-- `AND n` (R268). -/
def execAndN (n : Byte) (s : State) : Result := .next (s.aluImm .and n)

/-- `XOR r` (R269). -/
def execXorR (r : Reg8) (s : State) : Result := .next (s.aluReg .xor r)

/-- `XOR (HL)` (R269). -/
def execXorIndHl (s : State) : Result := .next (s.aluIndHl .xor)

/-- `XOR n` (R269). -/
def execXorN (n : Byte) (s : State) : Result := .next (s.aluImm .xor n)

/-- `OR r` (R270). -/
def execOrR (r : Reg8) (s : State) : Result := .next (s.aluReg .or r)

/-- `OR (HL)` (R270). -/
def execOrIndHl (s : State) : Result := .next (s.aluIndHl .or)

/-- `OR n` (R270). -/
def execOrN (n : Byte) (s : State) : Result := .next (s.aluImm .or n)

/-- `CP r` (R271). -/
def execCpR (r : Reg8) (s : State) : Result := .next (s.aluReg .cp r)

/-- `CP (HL)` (R271). -/
def execCpIndHl (s : State) : Result := .next (s.aluIndHl .cp)

/-- `CP n` (R271). -/
def execCpN (n : Byte) (s : State) : Result := .next (s.aluImm .cp n)

/-- `INC r` (R272). -/
def execIncR (r : Reg8) (s : State) : Result := .next (s.opFetch.incBy (s.reg r) (·.setReg r ·))

/-- `INC (HL)` (R273). -/
def execIncIndHl (s : State) : Result := .next (s.opFetch.incMem s.hl)

/-- `DEC r` (R274). -/
def execDecR (r : Reg8) (s : State) : Result := .next (s.opFetch.decBy (s.reg r) (·.setReg r ·))

/-- `DEC (HL)` (R275). -/
def execDecIndHl (s : State) : Result := .next (s.opFetch.decMem s.hl)

/-- `DAA` (R276). -/
def execDaa (s : State) : Result := .next (s.opFetch.setAF (Sys2Proof.daa s.a s.f))

/-- `CPL` (R277). -/
def execCpl (s : State) : Result := .next (s.opFetch.setAF (s.a ^^^ 0xFF, cplFlags (s.a ^^^ 0xFF) s.f))

/-- `SCF` (R278). -/
def execScf (s : State) : Result := .next (s.opFetch.setF (scfFlags s.a s.f))

/-- `CCF` (R279). -/
def execCcf (s : State) : Result := .next (s.opFetch.setF (ccfFlags s.a s.f))

/-- `RLCA` (R280). -/
def execRlca (s : State) : Result := .next (s.rotA .rlc)

/-- `RRCA` (R281). -/
def execRrca (s : State) : Result := .next (s.rotA .rrc)

/-- `RLA` (R282). -/
def execRla (s : State) : Result := .next (s.rotA .rl)

/-- `RRA` (R283). -/
def execRra (s : State) : Result := .next (s.rotA .rr)

/-- `ADD HL,rp` (R290). -/
def execAddHlRp (p : Rp) (s : State) : Result := .next { s.opFetch.addPair s.hl (s.rp p) with hl := s.hl + s.rp p }

/-- `INC rp`; no flag (R291). -/
def execIncRp (p : Rp) (s : State) : Result :=
  let s := s.opFetch
  .next ((s.internal s.ir 2).setRp p (s.rp p + 1))

/-- `DEC rp`; no flag (R292). -/
def execDecRp (p : Rp) (s : State) : Result :=
  let s := s.opFetch
  .next ((s.internal s.ir 2).setRp p (s.rp p - 1))

end Sys2Proof.Machine
end

