-- ==== Sys2Proof/Machine/Block.lean ====
section
/-! DEFINITION. The block instructions (spec/45_ed_block.md). One iteration per step; a repeating one that repeats adds five
internal ticks and sets PC back to its ED byte (R521). `dir` is 1 or -1 as a word. -/

namespace Sys2Proof.Machine

/-- The repeat of an iteration: `Internal(a, 5); PC <- u16(PC - 2)`, the address of the ED byte (R521). -/
def State.repeatAt (s : State) (a : Word) : State := { s.internal a 5 with pc := s.pc - 2 }

/-- One LDI or LDD (R522, R523). -/
def State.ldBlock (s : State) (dir : Word) : State :=
  let s := s.opFetch
  let v := s.byteAt s.hl
  let s := ((s.readAt s.hl).writeAt s.de v).internal s.de 2
  let s := { s with bc := s.bc - 1, hl := s.hl + dir, de := s.de + dir }
  s.setF (ldBlockFlags (v + s.a) s.f s.bc)

/-- LDIR or LDDR: repeats while BC ≠ 0, and then WZ is the ED byte's address plus 1 (R524, R525). -/
def State.ldBlockRepeat (s : State) (dir : Word) : State :=
  let s' := s.ldBlock dir
  if s'.bc = 0 then s'
  else
    let s' := s'.repeatAt s.de
    { s' with wz := s'.pc + 1 }

/-- One CPI or CPD but for its WZ (R526, R527). -/
def State.cpBlockCore (s : State) (dir : Word) : State :=
  let s := s.opFetch
  let v := s.byteAt s.hl
  let s := (s.readAt s.hl).internal s.hl 5
  let s := { s with bc := s.bc - 1, hl := s.hl + dir }
  s.setF (cpBlockFlags s.a v s.f s.bc)

/-- One CPI or CPD: `WZ <- u16(WZ + dir)` (R526, R527). -/
def State.cpBlock (s : State) (dir : Word) : State := { s.cpBlockCore dir with wz := s.wz + dir }

/-- CPIR or CPDR: repeats while BC ≠ 0 and A ≠ (HL), and then WZ is the ED byte's address plus 1 (R528, R529). -/
def State.cpBlockRepeat (s : State) (dir : Word) : State :=
  let s' := s.cpBlockCore dir
  if s'.bc = 0 ∨ s.a = s.opFetch.byteAt s.hl then { s' with wz := s.wz + dir }
  else
    let s' := s'.repeatAt s.hl
    { s' with wz := s'.pc + 1 }

/-- One INI or IND: the port is BC before B is decremented (R530, R531). -/
def State.inBlock (s : State) (dir : Word) : State :=
  let s := s.opFetch
  let s := s.internal s.ir 1
  let v := s.portByte s.bc
  let s := (s.ioReadAt s.bc).writeAt s.hl v
  let s := { s with wz := s.bc + dir, hl := s.hl + dir }
  let s := s.setB (s.b - 1)
  s.setF (ioFlags s.b v (v.toNat + (s.c + lo8 dir).toNat))

/-- INIR or INDR: repeats while B ≠ 0 (R532, R533). -/
def State.inBlockRepeat (s : State) (dir : Word) : State :=
  let s' := s.inBlock dir
  if s'.b = 0 then s' else s'.repeatAt s.hl

/-- One OUTI or OUTD: B is decremented before the port is formed (R534, R535). -/
def State.outBlock (s : State) (dir : Word) : State :=
  let s := s.opFetch
  let s := s.internal s.ir 1
  let v := s.byteAt s.hl
  let s := s.readAt s.hl
  let s := s.setB (s.b - 1)
  let s := s.ioWriteAt s.bc v
  let s := { s with wz := s.bc + dir, hl := s.hl + dir }
  s.setF (ioFlags s.b v (v.toNat + (lo8 s.hl).toNat))

/-- OTIR or OTDR: repeats while B ≠ 0, with the new BC on the bus (R536, R537). -/
def State.outBlockRepeat (s : State) (dir : Word) : State :=
  let s' := s.outBlock dir
  if s'.b = 0 then s' else s'.repeatAt s'.bc

/-- `LDI` (R522). -/
def execLdi (s : State) : Result := .next (s.ldBlock 1)

/-- `LDD` (R523). -/
def execLdd (s : State) : Result := .next (s.ldBlock (-1))

/-- `LDIR` (R524). -/
def execLdir (s : State) : Result := .next (s.ldBlockRepeat 1)

/-- `LDDR` (R525). -/
def execLddr (s : State) : Result := .next (s.ldBlockRepeat (-1))

/-- `CPI` (R526). -/
def execCpi (s : State) : Result := .next (s.cpBlock 1)

/-- `CPD` (R527). -/
def execCpd (s : State) : Result := .next (s.cpBlock (-1))

/-- `CPIR` (R528). -/
def execCpir (s : State) : Result := .next (s.cpBlockRepeat 1)

/-- `CPDR` (R529). -/
def execCpdr (s : State) : Result := .next (s.cpBlockRepeat (-1))

/-- `INI` (R530). -/
def execIni (s : State) : Result := .next (s.inBlock 1)

/-- `IND` (R531). -/
def execInd (s : State) : Result := .next (s.inBlock (-1))

/-- `INIR` (R532). -/
def execInir (s : State) : Result := .next (s.inBlockRepeat 1)

/-- `INDR` (R533). -/
def execIndr (s : State) : Result := .next (s.inBlockRepeat (-1))

/-- `OUTI` (R534). -/
def execOuti (s : State) : Result := .next (s.outBlock 1)

/-- `OUTD` (R535). -/
def execOutd (s : State) : Result := .next (s.outBlock (-1))

/-- `OTIR` (R536). -/
def execOtir (s : State) : Result := .next (s.outBlockRepeat 1)

/-- `OTDR` (R537). -/
def execOtdr (s : State) : Result := .next (s.outBlockRepeat (-1))

end Sys2Proof.Machine
end

