-- ==== Sys2Proof/Machine/CbPage.lean ====
section
/-! DEFINITION. The CB page: shifts, rotates, bit test, reset and set (spec/43_cb_page.md). The fetch of the CB byte is
`execCbPrefix`. -/

namespace Sys2Proof.Machine

/-- A shift or rotate of a register (R401). -/
def State.rotReg (s : State) (o : RotOp) (r : Reg8) : State :=
  let s := s.opFetch
  let v := s.reg r
  let res := rotRes o (carryOf s.f) v
  (s.setF (rotFlags res (rotOut o v))).setReg r res

/-- A shift or rotate of a memory byte, with F (R401, R621). -/
def State.rotMem (s : State) (o : RotOp) (a : Word) : State :=
  let v := s.byteAt a
  let cin := carryOf s.f
  (s.modifyAt a (rotRes o cin)).setF (rotFlags (rotRes o cin v) (rotOut o v))

/-- A shift or rotate of (HL) (R400, R401). -/
def State.rotIndHl (s : State) (o : RotOp) : State := s.opFetch.rotMem o s.hl

/-- `RLC r` (R402). -/
def execRlcR (r : Reg8) (s : State) : Result := .next (s.rotReg .rlc r)

/-- `RLC (HL)` (R402). -/
def execRlcIndHl (s : State) : Result := .next (s.rotIndHl .rlc)

/-- `RRC r` (R403). -/
def execRrcR (r : Reg8) (s : State) : Result := .next (s.rotReg .rrc r)

/-- `RRC (HL)` (R403). -/
def execRrcIndHl (s : State) : Result := .next (s.rotIndHl .rrc)

/-- `RL r` (R404). -/
def execRlR (r : Reg8) (s : State) : Result := .next (s.rotReg .rl r)

/-- `RL (HL)` (R404). -/
def execRlIndHl (s : State) : Result := .next (s.rotIndHl .rl)

/-- `RR r` (R405). -/
def execRrR (r : Reg8) (s : State) : Result := .next (s.rotReg .rr r)

/-- `RR (HL)` (R405). -/
def execRrIndHl (s : State) : Result := .next (s.rotIndHl .rr)

/-- `SLA r` (R406). -/
def execSlaR (r : Reg8) (s : State) : Result := .next (s.rotReg .sla r)

/-- `SLA (HL)` (R406). -/
def execSlaIndHl (s : State) : Result := .next (s.rotIndHl .sla)

/-- `SRA r` (R407). -/
def execSraR (r : Reg8) (s : State) : Result := .next (s.rotReg .sra r)

/-- `SRA (HL)` (R407). -/
def execSraIndHl (s : State) : Result := .next (s.rotIndHl .sra)

/-- `SLL r` (R408). -/
def execSllR (r : Reg8) (s : State) : Result := .next (s.rotReg .sll r)

/-- `SLL (HL)` (R408). -/
def execSllIndHl (s : State) : Result := .next (s.rotIndHl .sll)

/-- `SRL r` (R409). -/
def execSrlR (r : Reg8) (s : State) : Result := .next (s.rotReg .srl r)

/-- `SRL (HL)` (R409). -/
def execSrlIndHl (s : State) : Result := .next (s.rotIndHl .srl)

/-- `BIT b,r` (R410). -/
def execBitBR (b : BitVec 3) (r : Reg8) (s : State) : Result :=
  let s := s.opFetch
  .next (s.setF (bitFlags b (s.reg r) (s.reg r) s.f))

/-- `BIT b,(HL)`: F.5 and F.3 come from W (R411). -/
def execBitBIndHl (b : BitVec 3) (s : State) : Result :=
  let s := s.opFetch
  .next (((s.readAt s.hl).internal s.hl 1).setF (bitFlags b (s.byteAt s.hl) (hi8 s.wz) s.f))

/-- `RES b,r` (R412). -/
def execResBR (b : BitVec 3) (r : Reg8) (s : State) : Result := .next (s.opFetch.setReg r (resBit b (s.reg r)))

/-- `RES b,(HL)` (R412). -/
def execResBIndHl (b : BitVec 3) (s : State) : Result := .next (s.opFetch.modifyAt s.hl (resBit b))

/-- `SET b,r` (R413). -/
def execSetBR (b : BitVec 3) (r : Reg8) (s : State) : Result := .next (s.opFetch.setReg r (setBit b (s.reg r)))

/-- `SET b,(HL)` (R413). -/
def execSetBIndHl (b : BitVec 3) (s : State) : Result := .next (s.opFetch.modifyAt s.hl (setBit b))

end Sys2Proof.Machine
end

