-- ==== Sys2Proof/Machine/Control.lean ====
section
/-! DEFINITION. Base-page control transfer, interrupt enables and immediate-port I/O (spec/42_base_control.md). -/

namespace Sys2Proof.Machine

/-- The taken part of a relative jump: `Internal(u16(PC - 1), 5); PC <- u16(PC + e); WZ <- PC` (R343). -/
def State.jumpRel (s : State) (e : Byte) : State := (s.internal (s.pc - 1) 5).goto (s.pc + sext16 e)

/-- The taken part of a call: `Internal(u16(PC - 1), 1); Push(PC); PC <- nn`; WZ is nn already (R347). -/
def State.callTo (s : State) (nn : Word) : State := { (s.internal (s.pc - 1) 1).push s.pc with pc := nn }

/-- `NOP` (R330). -/
def execNop (s : State) : Result := .next s.opFetch

/-- `HALT`; PC points back at the HALT byte (R332). -/
def execHalt (s : State) : Result :=
  let s := s.opFetch
  .next { s with halted := true, pc := s.pc - 1 }

/-- `DI` (R333). -/
def execDi (s : State) : Result := .next { s.opFetch with iff1 := false, iff2 := false }

/-- `EI` (R335). -/
def execEi (s : State) : Result := .next { s.opFetch with iff1 := true, iff2 := true, eiBlock := true }

/-- `JP nn` (R340). -/
def execJpNn (nn : Word) (s : State) : Result := .next (s.opFetch.operand.operand.goto nn)

/-- `JP cc,nn`; WZ is nn, taken or not (R341). -/
def execJpCcNn (cc : Cond) (nn : Word) (s : State) : Result :=
  let s := s.opFetch.operand.operand
  .next { s with wz := nn, pc := if cc.holds s.f then nn else s.pc }

/-- `JP (HL)`; memory is not read (R342). -/
def execJpIndHl (s : State) : Result := .next { s.opFetch with pc := s.hl }

/-- `JR e` (R343). -/
def execJr (e : Byte) (s : State) : Result := .next (s.opFetch.operand.jumpRel e)

/-- `JR cc,e` (R344). -/
def execJrCc (cc : JrCond) (e : Byte) (s : State) : Result :=
  let s := s.opFetch.operand
  .next (if cc.cond.holds s.f then s.jumpRel e else s)

/-- `DJNZ e`; no flag (R345). -/
def execDjnz (e : Byte) (s : State) : Result :=
  let s := s.opFetch
  let s := (s.internal s.ir 1).operand
  let s := s.setB (s.b - 1)
  .next (if s.b = 0 then s else s.jumpRel e)

/-- `CALL nn` (R347). -/
def execCallNn (nn : Word) (s : State) : Result :=
  let s := { s.opFetch.operand.operand with wz := nn }
  .next (s.callTo nn)

/-- `CALL cc,nn`; WZ is nn, taken or not (R348). -/
def execCallCcNn (cc : Cond) (nn : Word) (s : State) : Result :=
  let s := { s.opFetch.operand.operand with wz := nn }
  .next (if cc.holds s.f then s.callTo nn else s)

/-- `RET` (R349). -/
def execRet (s : State) : Result := .next s.opFetch.popPc

/-- `RET cc` (R350). -/
def execRetCc (cc : Cond) (s : State) : Result :=
  let s := s.opFetch
  let s := s.internal s.ir 1
  .next (if cc.holds s.f then s.popPc else s)

/-- `RST p`, p = 8*y (R351). -/
def execRst (y : BitVec 3) (s : State) : Result :=
  let s := s.opFetch
  .next (((s.internal s.ir 1).push s.pc).goto (y.setWidth 16 <<< 3))

/-- `IN A,(n)`; the port is cat(A, n) and WZ is the port plus 1 (R353). -/
def execInAN (n : Byte) (s : State) : Result :=
  let s := s.opFetch.operand
  let port := cat s.a n
  .next { (s.ioReadAt port).setA (s.portByte port) with wz := port + 1 }

/-- `OUT (n),A`; the port is cat(A, n) (R354). -/
def execOutNA (n : Byte) (s : State) : Result :=
  let s := s.opFetch.operand
  .next { s.ioWriteAt (cat s.a n) s.a with wz := cat s.a (n + 1) }

end Sys2Proof.Machine
end

