-- ==== Sys2Proof/Machine/Load.lean ====
section
/-! DEFINITION. Base-page loads, stack and exchanges (spec/40_base_load.md). -/

namespace Sys2Proof.Machine

/-- `LD r,r'` (R200). -/
def execLdRR (r r' : Reg8) (s : State) : Result :=
  let s := s.opFetch
  .next (s.setReg r (s.reg r'))

/-- `LD r,n` (R201). -/
def execLdRN (r : Reg8) (n : Byte) (s : State) : Result := .next (s.opFetch.operand.setReg r n)

/-- `LD r,(HL)` (R202). -/
def execLdRIndHl (r : Reg8) (s : State) : Result :=
  let s := s.opFetch
  .next ((s.readAt s.hl).setReg r (s.byteAt s.hl))

/-- `LD A,(BC)` / `LD A,(DE)`; WZ is the address plus 1 (R203). -/
def execLdAIndRp (p : BcDe) (s : State) : Result :=
  let s := s.opFetch
  let a := s.bcDe p
  .next { (s.readAt a).setA (s.byteAt a) with wz := a + 1 }

/-- `LD A,(nn)`; WZ is nn + 1 (R204). -/
def execLdAIndNn (nn : Word) (s : State) : Result :=
  let s := s.opFetch.operand.operand
  .next { (s.readAt nn).setA (s.byteAt nn) with wz := nn + 1 }

/-- `LD (BC),A` / `LD (DE),A`; W is A, and the low byte of WZ is that of the address plus 1 (R205). -/
def execLdIndRpA (p : BcDe) (s : State) : Result :=
  let s := s.opFetch
  let a := s.bcDe p
  .next { s.writeAt a s.a with wz := cat s.a (lo8 a + 1) }

/-- `LD (nn),A` (R206). -/
def execLdIndNnA (nn : Word) (s : State) : Result :=
  let s := s.opFetch.operand.operand
  .next { s.writeAt nn s.a with wz := cat s.a (lo8 nn + 1) }

/-- `LD (HL),r` (R207). -/
def execLdIndHlR (r : Reg8) (s : State) : Result :=
  let s := s.opFetch
  .next (s.writeAt s.hl (s.reg r))

/-- `LD (HL),n` (R208). -/
def execLdIndHlN (n : Byte) (s : State) : Result :=
  let s := s.opFetch.operand
  .next (s.writeAt s.hl n)

/-- `LD rp,nn` (R212). -/
def execLdRpNn (p : Rp) (nn : Word) (s : State) : Result := .next (s.opFetch.operand.operand.setRp p nn)

/-- `Internal(IR, 2); SP <- w`, the rest of LD SP,HL and LD SP,IX after the fetches (R213, R587). -/
def State.loadSp (s : State) (w : Word) : State := { s.internal s.ir 2 with sp := w }

/-- `LD rp,(nn)` after the fetches, the word read put into its register by `put`: `Imm16()`, two reads, `WZ <- nn + 1`
(R214, R464, R577). -/
def State.loadWord (s : State) (nn : Word) (put : State → Word → State) : State :=
  let s := s.operand.operand
  put { s.readWordAt nn with wz := nn + 1 } (s.wordAt nn)

/-- `LD (nn),rp` after the fetches: `Imm16()`, two writes of w, `WZ <- nn + 1` (R215, R465, R578). -/
def State.storeWord (s : State) (nn w : Word) : State := { s.operand.operand.writeWordAt nn w with wz := nn + 1 }

/-- `Internal(IR, 1); Push(w)`, the rest of PUSH after the fetches (R216, R584). -/
def State.pushPair (s : State) (w : Word) : State := (s.internal s.ir 1).push w

/-- `LD SP,HL` (R213). -/
def execLdSpHl (s : State) : Result := .next (s.opFetch.loadSp s.hl)

/-- `LD HL,(nn)` (R214). -/
def execLdHlIndNn (nn : Word) (s : State) : Result := .next (s.opFetch.loadWord nn (·.setRp .hl ·))

/-- `LD (nn),HL` (R215). -/
def execLdIndNnHl (nn : Word) (s : State) : Result := .next (s.opFetch.storeWord nn s.hl)

/-- `PUSH rp2` (R216). -/
def execPushRp2 (p : Rp2) (s : State) : Result := .next (s.opFetch.pushPair (s.rp2 p))

/-- `POP rp2`; `POP AF` loads all of F (R217). -/
def execPopRp2 (p : Rp2) (s : State) : Result :=
  let s := s.opFetch
  .next (s.pop.setRp2 p (s.wordAt s.sp))

/-- `EX AF,AF'` (R229). -/
def execExAfAf (s : State) : Result := .next { s.opFetch with af := s.afAlt, afAlt := s.af }

/-- `EXX` (R230). -/
def execExx (s : State) : Result :=
  .next { s.opFetch with bc := s.bcAlt, de := s.deAlt, hl := s.hlAlt, bcAlt := s.bc, deAlt := s.de, hlAlt := s.hl }

/-- `EX DE,HL` (R231). -/
def execExDeHl (s : State) : Result := .next { s.opFetch with de := s.hl, hl := s.de }

/-- `EX (SP),HL`; WZ is the new HL (R232). -/
def execExIndSpHl (s : State) : Result :=
  let s := s.opFetch
  let w := s.wordAt s.sp
  .next { s.exchangeTop s.hl with hl := w, wz := w }

end Sys2Proof.Machine
end

