-- ==== Sys2Proof/Machine/EdPage.lean ====
section
/-! DEFINITION. The ED page but for the block instructions (spec/44_ed_page.md). The fetch of the ED byte is
`execEdPrefix`. -/

namespace Sys2Proof.Machine

/-- `im[y]` (R162). -/
def imOf (y : BitVec 3) : IntMode :=
  match y.toNat with
  | 0 => .im0
  | 1 => Config.imUndefMode
  | 2 => .im1
  | 3 => .im2
  | 4 => .im0
  | 5 => Config.imUndefMode
  | 6 => .im1
  | _ => .im2

/-- `Internal(IR, 1); A <- v` with the flags of LD A,I and LD A,R (R468). -/
def State.loadAir (s : State) (v : Byte) : State :=
  let s := s.internal s.ir 1
  s.setAF (v, ldAirFlags v s.f s.iff2)

/-- RLD and RRD after the fetches: (HL) is read, four internal ticks, then (HL), A and F are written and
`WZ <- HL + 1` (R466, R467). -/
def State.digitRotate (s : State) (m a : Byte) : State :=
  let s := ((s.readAt s.hl).internal s.hl 4).writeAt s.hl m
  { s.setAF (a, inFlags a s.f) with wz := s.hl + 1 }

/-- `IN r,(C)`: the port is BC as it stands before the read (R450). -/
def execInRC (r : Reg8) (s : State) : Result :=
  let s := s.opFetch
  let v := s.portByte s.bc
  let s := { s.ioReadAt s.bc with wz := s.bc + 1 }
  .next ((s.setF (inFlags v s.f)).setReg r v)

/-- `IN (C)`: flags only (R451). -/
def execInC (s : State) : Result :=
  let s := s.opFetch
  let v := s.portByte s.bc
  let s := { s.ioReadAt s.bc with wz := s.bc + 1 }
  .next (s.setF (inFlags v s.f))

/-- `OUT (C),r` (R452). -/
def execOutCR (r : Reg8) (s : State) : Result :=
  let s := s.opFetch
  .next { s.ioWriteAt s.bc (s.reg r) with wz := s.bc + 1 }

/-- `OUT (C),0`: the byte is `OUT_C_ZERO_VALUE` (R453). -/
def execOutC0 (s : State) : Result :=
  let s := s.opFetch
  .next { s.ioWriteAt s.bc Config.outCZeroValue with wz := s.bc + 1 }

/-- `NEG` and its mirrors (R454). -/
def execNeg (_y : BitVec 3) (s : State) : Result := .next (s.opFetch.setAF (sub8 0 s.a false))

/-- `RETI` (R457). -/
def execReti (s : State) : Result := .next s.opFetch.returnFromInterrupt

/-- `RETN` and its mirrors (R458). -/
def execRetn (_y : BitVec 3) (s : State) : Result := .next s.opFetch.returnFromInterrupt

/-- `IM im[y]` (R459). -/
def execIm (y : BitVec 3) (s : State) : Result := .next { s.opFetch with im := imOf y }

/-- `LD I,A` (R460). -/
def execLdIA (s : State) : Result :=
  let s := s.opFetch
  .next { s.internal s.ir 1 with ir := withHi s.ir s.a }

/-- `LD R,A`: all 8 bits, after the instruction's own refresh counts (R461). -/
def execLdRA (s : State) : Result :=
  let s := s.opFetch
  .next { s.internal s.ir 1 with ir := withLo s.ir s.a }

/-- `LD A,I` (R468). -/
def execLdAI (s : State) : Result :=
  let s := s.opFetch
  .next (s.loadAir s.i)

/-- `LD A,R`: R already holds the instruction's own refresh counts (R469). -/
def execLdAR (s : State) : Result :=
  let s := s.opFetch
  .next (s.loadAir s.r)

/-- `ADC HL,rp` (R462). -/
def execAdcHlRp (p : Rp) (s : State) : Result :=
  let s := s.opFetch
  let r := adc16 s.hl (s.rp p) s.f
  .next { (s.internal s.ir 7).setF r.2 with hl := r.1, wz := s.hl + 1 }

/-- `SBC HL,rp` (R463). -/
def execSbcHlRp (p : Rp) (s : State) : Result :=
  let s := s.opFetch
  let r := sbc16 s.hl (s.rp p) s.f
  .next { (s.internal s.ir 7).setF r.2 with hl := r.1, wz := s.hl + 1 }

/-- `LD rp,(nn)` (R464). -/
def execLdRpIndNn (p : Rp) (nn : Word) (s : State) : Result := .next (s.opFetch.loadWord nn (·.setRp p ·))

/-- `LD (nn),rp` (R465). -/
def execLdIndNnRp (p : Rp) (nn : Word) (s : State) : Result := .next (s.opFetch.storeWord nn (s.rp p))

/-- `RLD` (R466). -/
def execRld (s : State) : Result :=
  let s := s.opFetch
  let m := s.byteAt s.hl
  .next (s.digitRotate ((m <<< 4) ||| (s.a &&& 0x0F)) ((s.a &&& 0xF0) ||| (m >>> 4)))

/-- `RRD` (R467). -/
def execRrd (s : State) : Result :=
  let s := s.opFetch
  let m := s.byteAt s.hl
  .next (s.digitRotate (((s.a &&& 0x0F) <<< 4) ||| (m >>> 4)) ((s.a &&& 0xF0) ||| (m &&& 0x0F)))

/-- `NOP` at ED 77 and ED 7F (R470). -/
def execNopEd (_q : BitVec 1) (s : State) : Result := .next s.opFetch

/-- `NONI` (R470). -/
def execNoni (_op : Byte) (s : State) : Result := .next s.opFetch

end Sys2Proof.Machine
end

