-- ==== Sys2Proof/Machine/IndexCbPage.lean ====
section
/-! DEFINITION. The DDCB and FDCB pages (spec/47_index_cb_page.md), each operation once for both index registers. The
fetches of DD or FD and of CB are the prefix rows; d and op are read with `MemRead`, not fetched (R620). -/

namespace Sys2Proof.Machine

/-- The reads of d and op, `Internal(u16(PC - 1), 2)` and `WZ <- ea` (R620). -/
def State.indexedCb (s : State) (x : Index) (d : Byte) : State :=
  let s := s.operand.operand
  { s.internal (s.pc - 1) 2 with wz := s.ea x d }

/-- `rot (IX+d)` (R621). -/
def State.rotIndexed (s : State) (x : Index) (o : RotOp) (d : Byte) : State :=
  let s := s.indexedCb x d
  s.rotMem o s.wz

/-- `BIT b,(IX+d)`: F.5 and F.3 from the high byte of the address, which is W (R623). -/
def State.bitIndexed (s : State) (x : Index) (d : Byte) (b : BitVec 3) : State :=
  let s := s.indexedCb x d
  ((s.readAt s.wz).internal s.wz 1).setF (bitFlags b (s.byteAt s.wz) (hi8 s.wz) s.f)

/-- `RES b,(IX+d)` or `SET b,(IX+d)`, with the byte's new value given by `g`: no flag (R624, R626). -/
def State.changeIndexed (s : State) (x : Index) (d : Byte) (g : Byte → Byte) : State :=
  let s := s.indexedCb x d
  s.modifyAt s.wz g

/-- `rot (IX+d)->r`: the result is also copied into r[z], the real H or L for z = 4 or 5 (R620, R622). -/
def State.rotIndexedCopy (s : State) (x : Index) (o : RotOp) (d : Byte) (r : Reg8) : State :=
  let s := s.indexedCb x d
  (s.rotMem o s.wz).setReg r (rotRes o (carryOf s.f) (s.byteAt s.wz))

/-- `RES b,(IX+d)->r` or `SET b,(IX+d)->r`: the new byte is also copied into r[z] (R620, R625, R627). -/
def State.changeIndexedCopy (s : State) (x : Index) (d : Byte) (g : Byte → Byte) (r : Reg8) : State :=
  let s := s.indexedCb x d
  (s.modifyAt s.wz g).setReg r (g (s.byteAt s.wz))

/-- `RLC (IX+d)` (R621). -/
def execRlcIx (d : Byte) (s : State) : Result := .next (s.rotIndexed .ix .rlc d)

/-- `RLC (IX+d)->r` (R622). -/
def execRlcIxR (d : Byte) (r : Reg8) (s : State) : Result := .next (s.rotIndexedCopy .ix .rlc d r)

/-- `RRC (IX+d)` (R621). -/
def execRrcIx (d : Byte) (s : State) : Result := .next (s.rotIndexed .ix .rrc d)

/-- `RRC (IX+d)->r` (R622). -/
def execRrcIxR (d : Byte) (r : Reg8) (s : State) : Result := .next (s.rotIndexedCopy .ix .rrc d r)

/-- `RL (IX+d)` (R621). -/
def execRlIx (d : Byte) (s : State) : Result := .next (s.rotIndexed .ix .rl d)

/-- `RL (IX+d)->r` (R622). -/
def execRlIxR (d : Byte) (r : Reg8) (s : State) : Result := .next (s.rotIndexedCopy .ix .rl d r)

/-- `RR (IX+d)` (R621). -/
def execRrIx (d : Byte) (s : State) : Result := .next (s.rotIndexed .ix .rr d)

/-- `RR (IX+d)->r` (R622). -/
def execRrIxR (d : Byte) (r : Reg8) (s : State) : Result := .next (s.rotIndexedCopy .ix .rr d r)

/-- `SLA (IX+d)` (R621). -/
def execSlaIx (d : Byte) (s : State) : Result := .next (s.rotIndexed .ix .sla d)

/-- `SLA (IX+d)->r` (R622). -/
def execSlaIxR (d : Byte) (r : Reg8) (s : State) : Result := .next (s.rotIndexedCopy .ix .sla d r)

/-- `SRA (IX+d)` (R621). -/
def execSraIx (d : Byte) (s : State) : Result := .next (s.rotIndexed .ix .sra d)

/-- `SRA (IX+d)->r` (R622). -/
def execSraIxR (d : Byte) (r : Reg8) (s : State) : Result := .next (s.rotIndexedCopy .ix .sra d r)

/-- `SLL (IX+d)` (R621). -/
def execSllIx (d : Byte) (s : State) : Result := .next (s.rotIndexed .ix .sll d)

/-- `SLL (IX+d)->r` (R622). -/
def execSllIxR (d : Byte) (r : Reg8) (s : State) : Result := .next (s.rotIndexedCopy .ix .sll d r)

/-- `SRL (IX+d)` (R621). -/
def execSrlIx (d : Byte) (s : State) : Result := .next (s.rotIndexed .ix .srl d)

/-- `SRL (IX+d)->r` (R622). -/
def execSrlIxR (d : Byte) (r : Reg8) (s : State) : Result := .next (s.rotIndexedCopy .ix .srl d r)

/-- `BIT b,(IX+d)`, any z (R623). -/
def execBitIx (d : Byte) (b _z : BitVec 3) (s : State) : Result := .next (s.bitIndexed .ix d b)

/-- `RES b,(IX+d)` (R624). -/
def execResIx (d : Byte) (b : BitVec 3) (s : State) : Result := .next (s.changeIndexed .ix d (resBit b))

/-- `RES b,(IX+d)->r` (R625). -/
def execResIxR (d : Byte) (b : BitVec 3) (r : Reg8) (s : State) : Result :=
  .next (s.changeIndexedCopy .ix d (resBit b) r)

/-- `SET b,(IX+d)` (R626). -/
def execSetIx (d : Byte) (b : BitVec 3) (s : State) : Result := .next (s.changeIndexed .ix d (setBit b))

/-- `SET b,(IX+d)->r` (R627). -/
def execSetIxR (d : Byte) (b : BitVec 3) (r : Reg8) (s : State) : Result :=
  .next (s.changeIndexedCopy .ix d (setBit b) r)

/-- `RLC (IY+d)` (R621). -/
def execRlcIy (d : Byte) (s : State) : Result := .next (s.rotIndexed .iy .rlc d)

/-- `RLC (IY+d)->r` (R622). -/
def execRlcIyR (d : Byte) (r : Reg8) (s : State) : Result := .next (s.rotIndexedCopy .iy .rlc d r)

/-- `RRC (IY+d)` (R621). -/
def execRrcIy (d : Byte) (s : State) : Result := .next (s.rotIndexed .iy .rrc d)

/-- `RRC (IY+d)->r` (R622). -/
def execRrcIyR (d : Byte) (r : Reg8) (s : State) : Result := .next (s.rotIndexedCopy .iy .rrc d r)

/-- `RL (IY+d)` (R621). -/
def execRlIy (d : Byte) (s : State) : Result := .next (s.rotIndexed .iy .rl d)

/-- `RL (IY+d)->r` (R622). -/
def execRlIyR (d : Byte) (r : Reg8) (s : State) : Result := .next (s.rotIndexedCopy .iy .rl d r)

/-- `RR (IY+d)` (R621). -/
def execRrIy (d : Byte) (s : State) : Result := .next (s.rotIndexed .iy .rr d)

/-- `RR (IY+d)->r` (R622). -/
def execRrIyR (d : Byte) (r : Reg8) (s : State) : Result := .next (s.rotIndexedCopy .iy .rr d r)

/-- `SLA (IY+d)` (R621). -/
def execSlaIy (d : Byte) (s : State) : Result := .next (s.rotIndexed .iy .sla d)

/-- `SLA (IY+d)->r` (R622). -/
def execSlaIyR (d : Byte) (r : Reg8) (s : State) : Result := .next (s.rotIndexedCopy .iy .sla d r)

/-- `SRA (IY+d)` (R621). -/
def execSraIy (d : Byte) (s : State) : Result := .next (s.rotIndexed .iy .sra d)

/-- `SRA (IY+d)->r` (R622). -/
def execSraIyR (d : Byte) (r : Reg8) (s : State) : Result := .next (s.rotIndexedCopy .iy .sra d r)

/-- `SLL (IY+d)` (R621). -/
def execSllIy (d : Byte) (s : State) : Result := .next (s.rotIndexed .iy .sll d)

/-- `SLL (IY+d)->r` (R622). -/
def execSllIyR (d : Byte) (r : Reg8) (s : State) : Result := .next (s.rotIndexedCopy .iy .sll d r)

/-- `SRL (IY+d)` (R621). -/
def execSrlIy (d : Byte) (s : State) : Result := .next (s.rotIndexed .iy .srl d)

/-- `SRL (IY+d)->r` (R622). -/
def execSrlIyR (d : Byte) (r : Reg8) (s : State) : Result := .next (s.rotIndexedCopy .iy .srl d r)

/-- `BIT b,(IY+d)`, any z (R623). -/
def execBitIy (d : Byte) (b _z : BitVec 3) (s : State) : Result := .next (s.bitIndexed .iy d b)

/-- `RES b,(IY+d)` (R624). -/
def execResIy (d : Byte) (b : BitVec 3) (s : State) : Result := .next (s.changeIndexed .iy d (resBit b))

/-- `RES b,(IY+d)->r` (R625). -/
def execResIyR (d : Byte) (b : BitVec 3) (r : Reg8) (s : State) : Result :=
  .next (s.changeIndexedCopy .iy d (resBit b) r)

/-- `SET b,(IY+d)` (R626). -/
def execSetIy (d : Byte) (b : BitVec 3) (s : State) : Result := .next (s.changeIndexed .iy d (setBit b))

/-- `SET b,(IY+d)->r` (R627). -/
def execSetIyR (d : Byte) (b : BitVec 3) (r : Reg8) (s : State) : Result :=
  .next (s.changeIndexedCopy .iy d (setBit b) r)

end Sys2Proof.Machine
end

