-- ==== Sys2Proof/Machine/IndexPage.lean ====
section
/-! DEFINITION. The DD and FD pages (spec/46_index_pages.md), each operation once for both index registers. The fetch of
the DD or FD byte is `execDdPrefix` or `execFdPrefix`. Beside an (IX+d) operand, H and L are the real H and L (R572). -/

namespace Sys2Proof.Machine

/-- `LD r,(IX+d)` (R574). -/
def State.loadIndexed (s : State) (x : Index) (r : Reg8) (d : Byte) : State :=
  let s := s.indexed x d
  (s.readAt s.wz).setReg r (s.byteAt s.wz)

/-- `LD (IX+d),r` (R575). -/
def State.storeIndexed (s : State) (x : Index) (d : Byte) (r : Reg8) : State :=
  let s := s.indexed x d
  s.writeAt s.wz (s.reg r)

/-- `LD (IX+d),n`: two internal ticks at the address of n in place of five at that of d (R573, R576). -/
def State.storeIndexedImm (s : State) (x : Index) (d n : Byte) : State :=
  let s := s.opFetch.operand.operand
  let s := { s.internal (s.pc - 1) 2 with wz := s.ea x d }
  s.writeAt s.wz n

/-- `alu[y] A,(IX+d)` (R588). -/
def State.aluIndexed (s : State) (x : Index) (o : AluOp) (d : Byte) : State :=
  let s := s.indexed x d
  (s.readAt s.wz).alu o (s.byteAt s.wz)

/-- `INC (IX+d)` (R589). -/
def State.incIndexed (s : State) (x : Index) (d : Byte) : State :=
  let s := s.indexed x d
  s.incMem s.wz

/-- `DEC (IX+d)` (R590). -/
def State.decIndexed (s : State) (x : Index) (d : Byte) : State :=
  let s := s.indexed x d
  s.decMem s.wz

/-- `INC IX` or `DEC IX`: `Internal(IR, 2)`, no flag (R581, R582). -/
def State.stepIdx (s : State) (x : Index) (k : Word) : State :=
  let s := s.opFetch
  (s.internal s.ir 2).setIdx x (s.idx x + k)

/-- `ADD IX,rp` (R580). -/
def State.addIdx (s : State) (x : Index) (p : RpX) : State :=
  (s.opFetch.addPair (s.idx x) (s.rpX x p)).setIdx x (s.idx x + s.rpX x p)

/-- `POP IX` (R585). -/
def State.popIdx (s : State) (x : Index) : State :=
  let s := s.opFetch
  s.pop.setIdx x (s.wordAt s.sp)

/-- `EX (SP),IX`: WZ is the new IX (R583). -/
def State.exchangeTopIdx (s : State) (x : Index) : State :=
  let s := s.opFetch
  let w := s.wordAt s.sp
  { (s.exchangeTop (s.idx x)).setIdx x w with wz := w }

/-- `ADD IX,rp` (R580). -/
def execAddIxRp (p : RpX) (s : State) : Result := .next (s.addIdx .ix p)

/-- `LD IX,nn` (R579). -/
def execLdIxNn (nn : Word) (s : State) : Result := .next (s.opFetch.operand.operand.setIdx .ix nn)

/-- `LD (nn),IX` (R578). -/
def execLdIndNnIx (nn : Word) (s : State) : Result := .next (s.opFetch.storeWord nn (s.idx .ix))

/-- `INC IX` (R581). -/
def execIncIx (s : State) : Result := .next (s.stepIdx .ix 1)

/-- `INC IXH` / `INC IXL` (R593). -/
def execIncIxHalf (h : Half) (s : State) : Result := .next (s.opFetch.incBy (s.half .ix h) (·.setHalf .ix h ·))

/-- `DEC IXH` / `DEC IXL` (R594). -/
def execDecIxHalf (h : Half) (s : State) : Result := .next (s.opFetch.decBy (s.half .ix h) (·.setHalf .ix h ·))

/-- `LD IXH,n` / `LD IXL,n` (R592). -/
def execLdIxHalfN (h : Half) (n : Byte) (s : State) : Result := .next (s.opFetch.operand.setHalf .ix h n)

/-- `LD IX,(nn)` (R577). -/
def execLdIxIndNn (nn : Word) (s : State) : Result := .next (s.opFetch.loadWord nn (·.setIdx .ix ·))

/-- `DEC IX` (R582). -/
def execDecIx (s : State) : Result := .next (s.stepIdx .ix (-1))

/-- `INC (IX+d)` (R589). -/
def execIncIndIxD (d : Byte) (s : State) : Result := .next (s.incIndexed .ix d)

/-- `DEC (IX+d)` (R590). -/
def execDecIndIxD (d : Byte) (s : State) : Result := .next (s.decIndexed .ix d)

/-- `LD (IX+d),n` (R576). -/
def execLdIndIxDN (d n : Byte) (s : State) : Result := .next (s.storeIndexedImm .ix d n)

/-- `LD r,IXH` / `LD r,IXL` (R591). -/
def execLdRIxHalf (r : Reg8NoHL) (h : Half) (s : State) : Result :=
  .next (s.opFetch.setReg (regNoHL r) (s.half .ix h))

/-- `LD IXH,r` / `LD IXL,r` (R591). -/
def execLdIxHalfR (h : Half) (r : Reg8X) (s : State) : Result := .next (s.opFetch.setHalf .ix h (s.regX .ix r))

/-- `LD r,(IX+d)` (R574). -/
def execLdRIndIxD (r : Reg8) (d : Byte) (s : State) : Result := .next (s.loadIndexed .ix r d)

/-- `LD (IX+d),r` (R575). -/
def execLdIndIxDR (d : Byte) (r : Reg8) (s : State) : Result := .next (s.storeIndexed .ix d r)

/-- `alu[y] A,IXH` / `alu[y] A,IXL` (R595). -/
def execAluIxHalf (o : AluOp) (h : Half) (s : State) : Result := .next (s.opFetch.alu o (s.half .ix h))

/-- `alu[y] A,(IX+d)` (R588). -/
def execAluIndIxD (o : AluOp) (d : Byte) (s : State) : Result := .next (s.aluIndexed .ix o d)

/-- `POP IX` (R585). -/
def execPopIx (s : State) : Result := .next (s.popIdx .ix)

/-- `EX (SP),IX` (R583). -/
def execExIndSpIx (s : State) : Result := .next (s.exchangeTopIdx .ix)

/-- `PUSH IX` (R584). -/
def execPushIx (s : State) : Result := .next (s.opFetch.pushPair (s.idx .ix))

/-- `JP (IX)`; memory is not read, WZ is kept (R586). -/
def execJpIndIx (s : State) : Result := .next { s.opFetch with pc := s.idx .ix }

/-- `LD SP,IX` (R587). -/
def execLdSpIx (s : State) : Result := .next (s.opFetch.loadSp (s.idx .ix))

/-- `ADD IY,rp` (R580). -/
def execAddIyRp (p : RpX) (s : State) : Result := .next (s.addIdx .iy p)

/-- `LD IY,nn` (R579). -/
def execLdIyNn (nn : Word) (s : State) : Result := .next (s.opFetch.operand.operand.setIdx .iy nn)

/-- `LD (nn),IY` (R578). -/
def execLdIndNnIy (nn : Word) (s : State) : Result := .next (s.opFetch.storeWord nn (s.idx .iy))

/-- `INC IY` (R581). -/
def execIncIy (s : State) : Result := .next (s.stepIdx .iy 1)

/-- `INC IYH` / `INC IYL` (R593). -/
def execIncIyHalf (h : Half) (s : State) : Result := .next (s.opFetch.incBy (s.half .iy h) (·.setHalf .iy h ·))

/-- `DEC IYH` / `DEC IYL` (R594). -/
def execDecIyHalf (h : Half) (s : State) : Result := .next (s.opFetch.decBy (s.half .iy h) (·.setHalf .iy h ·))

/-- `LD IYH,n` / `LD IYL,n` (R592). -/
def execLdIyHalfN (h : Half) (n : Byte) (s : State) : Result := .next (s.opFetch.operand.setHalf .iy h n)

/-- `LD IY,(nn)` (R577). -/
def execLdIyIndNn (nn : Word) (s : State) : Result := .next (s.opFetch.loadWord nn (·.setIdx .iy ·))

/-- `DEC IY` (R582). -/
def execDecIy (s : State) : Result := .next (s.stepIdx .iy (-1))

/-- `INC (IY+d)` (R589). -/
def execIncIndIyD (d : Byte) (s : State) : Result := .next (s.incIndexed .iy d)

/-- `DEC (IY+d)` (R590). -/
def execDecIndIyD (d : Byte) (s : State) : Result := .next (s.decIndexed .iy d)

/-- `LD (IY+d),n` (R576). -/
def execLdIndIyDN (d n : Byte) (s : State) : Result := .next (s.storeIndexedImm .iy d n)

/-- `LD r,IYH` / `LD r,IYL` (R591). -/
def execLdRIyHalf (r : Reg8NoHL) (h : Half) (s : State) : Result :=
  .next (s.opFetch.setReg (regNoHL r) (s.half .iy h))

/-- `LD IYH,r` / `LD IYL,r` (R591). -/
def execLdIyHalfR (h : Half) (r : Reg8X) (s : State) : Result := .next (s.opFetch.setHalf .iy h (s.regX .iy r))

/-- `LD r,(IY+d)` (R574). -/
def execLdRIndIyD (r : Reg8) (d : Byte) (s : State) : Result := .next (s.loadIndexed .iy r d)

/-- `LD (IY+d),r` (R575). -/
def execLdIndIyDR (d : Byte) (r : Reg8) (s : State) : Result := .next (s.storeIndexed .iy d r)

/-- `alu[y] A,IYH` / `alu[y] A,IYL` (R595). -/
def execAluIyHalf (o : AluOp) (h : Half) (s : State) : Result := .next (s.opFetch.alu o (s.half .iy h))

/-- `alu[y] A,(IY+d)` (R588). -/
def execAluIndIyD (o : AluOp) (d : Byte) (s : State) : Result := .next (s.aluIndexed .iy o d)

/-- `POP IY` (R585). -/
def execPopIy (s : State) : Result := .next (s.popIdx .iy)

/-- `EX (SP),IY` (R583). -/
def execExIndSpIy (s : State) : Result := .next (s.exchangeTopIdx .iy)

/-- `PUSH IY` (R584). -/
def execPushIy (s : State) : Result := .next (s.opFetch.pushPair (s.idx .iy))

/-- `JP (IY)`; memory is not read, WZ is kept (R586). -/
def execJpIndIy (s : State) : Result := .next { s.opFetch with pc := s.idx .iy }

/-- `LD SP,IY` (R587). -/
def execLdSpIy (s : State) : Result := .next (s.opFetch.loadSp (s.idx .iy))

end Sys2Proof.Machine
end

