-- ==== Sys2Proof/Machine/Prefixes.lean ====
section
/-! DEFINITION. The prefix rows (spec/30_encoding.md R153, spec/46_index_pages.md R571 and R596). A prefix byte is one
M1 fetch: 4 ticks and R + 1; the page it selects is `Instr.selects`, local to the step, so it is no state (R82; notes/assumptions/11). The row that
follows gives the rest of the instruction inside the same step. -/

namespace Sys2Proof.Machine

/-- `Fetch(PC); PC <- PC + 1` of the byte CB (R153). -/
def execCbPrefix (s : State) : Result := .next s.opFetch

/-- `Fetch(PC); PC <- PC + 1` of the byte DD (R153). -/
def execDdPrefix (s : State) : Result := .next s.opFetch

/-- `Fetch(PC); PC <- PC + 1` of the byte ED (R153). -/
def execEdPrefix (s : State) : Result := .next s.opFetch

/-- `Fetch(PC); PC <- PC + 1` of the byte FD (R153). -/
def execFdPrefix (s : State) : Result := .next s.opFetch

/-- The CB of DD CB, an M1 fetch (R620); d and op are read by the row that follows. -/
def execDdcbPrefix (s : State) : Result := .next s.opFetch

/-- The CB of FD CB, an M1 fetch (R620); d and op are read by the row that follows. -/
def execFdcbPrefix (s : State) : Result := .next s.opFetch

/-- A further DD or FD after DD: one more M1 fetch, and the selection is replaced (R596). -/
def execRePrefixDd (_x : Index) (s : State) : Result := .next s.opFetch

/-- The ED after DD: one M1 fetch, and the index selection is dropped (R596). -/
def execEdAfterDd (s : State) : Result := .next s.opFetch

/-- A further DD or FD after FD: one more M1 fetch, and the selection is replaced (R596). -/
def execRePrefixFd (_x : Index) (s : State) : Result := .next s.opFetch

/-- The ED after FD: one M1 fetch, and the index selection is dropped (R596). -/
def execEdAfterFd (s : State) : Result := .next s.opFetch

/-- DD before a byte with no DD row: nothing beyond the prefix's own fetch; the byte is then fetched and run by its
base row (R571). -/
def execDdIgnored (_op : Byte) (s : State) : Result := .next s

/-- FD before a byte with no FD row: nothing beyond the prefix's own fetch; the byte is then fetched and run by its
base row (R571). -/
def execFdIgnored (_op : Byte) (s : State) : Result := .next s

end Sys2Proof.Machine
end

