-- ==== Sys2Proof/Machine/Dispatch.lean ====
section
/-! DEFINITION. `exec`: one arm per row of spec/opcode_table.json, each one call of its meaning. -/

namespace Sys2Proof.Machine

def exec (i : Instr) (s : State) : Host.Outcome State Fault Refusal :=
  match i with
  -- base page
  | .nop => Sys2Proof.Machine.execNop s
  | .exAfAf => Sys2Proof.Machine.execExAfAf s
  | .djnz e => Sys2Proof.Machine.execDjnz e s
  | .jr e => Sys2Proof.Machine.execJr e s
  | .jrCc cc e => Sys2Proof.Machine.execJrCc cc e s
  | .ldRpNn p nn => Sys2Proof.Machine.execLdRpNn p nn s
  | .addHlRp p => Sys2Proof.Machine.execAddHlRp p s
  | .ldIndRpA p => Sys2Proof.Machine.execLdIndRpA p s
  | .ldIndNnHl nn => Sys2Proof.Machine.execLdIndNnHl nn s
  | .ldIndNnA nn => Sys2Proof.Machine.execLdIndNnA nn s
  | .ldAIndRp p => Sys2Proof.Machine.execLdAIndRp p s
  | .ldHlIndNn nn => Sys2Proof.Machine.execLdHlIndNn nn s
  | .ldAIndNn nn => Sys2Proof.Machine.execLdAIndNn nn s
  | .incRp p => Sys2Proof.Machine.execIncRp p s
  | .decRp p => Sys2Proof.Machine.execDecRp p s
  | .incR r => Sys2Proof.Machine.execIncR r s
  | .incIndHl => Sys2Proof.Machine.execIncIndHl s
  | .decR r => Sys2Proof.Machine.execDecR r s
  | .decIndHl => Sys2Proof.Machine.execDecIndHl s
  | .ldRN r n => Sys2Proof.Machine.execLdRN r n s
  | .ldIndHlN n => Sys2Proof.Machine.execLdIndHlN n s
  | .rlca => Sys2Proof.Machine.execRlca s
  | .rrca => Sys2Proof.Machine.execRrca s
  | .rla => Sys2Proof.Machine.execRla s
  | .rra => Sys2Proof.Machine.execRra s
  | .daa => Sys2Proof.Machine.execDaa s
  | .cpl => Sys2Proof.Machine.execCpl s
  | .scf => Sys2Proof.Machine.execScf s
  | .ccf => Sys2Proof.Machine.execCcf s
  | .ldRR r r' => Sys2Proof.Machine.execLdRR r r' s
  | .ldRIndHl r => Sys2Proof.Machine.execLdRIndHl r s
  | .ldIndHlR r => Sys2Proof.Machine.execLdIndHlR r s
  | .halt => Sys2Proof.Machine.execHalt s
  | .addAR r => Sys2Proof.Machine.execAddAR r s
  | .addAIndHl => Sys2Proof.Machine.execAddAIndHl s
  | .addAN n => Sys2Proof.Machine.execAddAN n s
  | .adcAR r => Sys2Proof.Machine.execAdcAR r s
  | .adcAIndHl => Sys2Proof.Machine.execAdcAIndHl s
  | .adcAN n => Sys2Proof.Machine.execAdcAN n s
  | .subR r => Sys2Proof.Machine.execSubR r s
  | .subIndHl => Sys2Proof.Machine.execSubIndHl s
  | .subN n => Sys2Proof.Machine.execSubN n s
  | .sbcAR r => Sys2Proof.Machine.execSbcAR r s
  | .sbcAIndHl => Sys2Proof.Machine.execSbcAIndHl s
  | .sbcAN n => Sys2Proof.Machine.execSbcAN n s
  | .andR r => Sys2Proof.Machine.execAndR r s
  | .andIndHl => Sys2Proof.Machine.execAndIndHl s
  | .andN n => Sys2Proof.Machine.execAndN n s
  | .xorR r => Sys2Proof.Machine.execXorR r s
  | .xorIndHl => Sys2Proof.Machine.execXorIndHl s
  | .xorN n => Sys2Proof.Machine.execXorN n s
  | .orR r => Sys2Proof.Machine.execOrR r s
  | .orIndHl => Sys2Proof.Machine.execOrIndHl s
  | .orN n => Sys2Proof.Machine.execOrN n s
  | .cpR r => Sys2Proof.Machine.execCpR r s
  | .cpIndHl => Sys2Proof.Machine.execCpIndHl s
  | .cpN n => Sys2Proof.Machine.execCpN n s
  | .retCc cc => Sys2Proof.Machine.execRetCc cc s
  | .popRp2 p => Sys2Proof.Machine.execPopRp2 p s
  | .ret => Sys2Proof.Machine.execRet s
  | .exx => Sys2Proof.Machine.execExx s
  | .jpIndHl => Sys2Proof.Machine.execJpIndHl s
  | .ldSpHl => Sys2Proof.Machine.execLdSpHl s
  | .jpCcNn cc nn => Sys2Proof.Machine.execJpCcNn cc nn s
  | .jpNn nn => Sys2Proof.Machine.execJpNn nn s
  | .cbPrefix => Sys2Proof.Machine.execCbPrefix s
  | .outNA n => Sys2Proof.Machine.execOutNA n s
  | .inAN n => Sys2Proof.Machine.execInAN n s
  | .exIndSpHl => Sys2Proof.Machine.execExIndSpHl s
  | .exDeHl => Sys2Proof.Machine.execExDeHl s
  | .di => Sys2Proof.Machine.execDi s
  | .ei => Sys2Proof.Machine.execEi s
  | .callCcNn cc nn => Sys2Proof.Machine.execCallCcNn cc nn s
  | .pushRp2 p => Sys2Proof.Machine.execPushRp2 p s
  | .callNn nn => Sys2Proof.Machine.execCallNn nn s
  | .ddPrefix => Sys2Proof.Machine.execDdPrefix s
  | .edPrefix => Sys2Proof.Machine.execEdPrefix s
  | .fdPrefix => Sys2Proof.Machine.execFdPrefix s
  | .rst y => Sys2Proof.Machine.execRst y s
  -- CB page
  | .rlcR r => Sys2Proof.Machine.execRlcR r s
  | .rlcIndHl => Sys2Proof.Machine.execRlcIndHl s
  | .rrcR r => Sys2Proof.Machine.execRrcR r s
  | .rrcIndHl => Sys2Proof.Machine.execRrcIndHl s
  | .rlR r => Sys2Proof.Machine.execRlR r s
  | .rlIndHl => Sys2Proof.Machine.execRlIndHl s
  | .rrR r => Sys2Proof.Machine.execRrR r s
  | .rrIndHl => Sys2Proof.Machine.execRrIndHl s
  | .slaR r => Sys2Proof.Machine.execSlaR r s
  | .slaIndHl => Sys2Proof.Machine.execSlaIndHl s
  | .sraR r => Sys2Proof.Machine.execSraR r s
  | .sraIndHl => Sys2Proof.Machine.execSraIndHl s
  | .sllR r => Sys2Proof.Machine.execSllR r s
  | .sllIndHl => Sys2Proof.Machine.execSllIndHl s
  | .srlR r => Sys2Proof.Machine.execSrlR r s
  | .srlIndHl => Sys2Proof.Machine.execSrlIndHl s
  | .bitBR b r => Sys2Proof.Machine.execBitBR b r s
  | .bitBIndHl b => Sys2Proof.Machine.execBitBIndHl b s
  | .resBR b r => Sys2Proof.Machine.execResBR b r s
  | .resBIndHl b => Sys2Proof.Machine.execResBIndHl b s
  | .setBR b r => Sys2Proof.Machine.execSetBR b r s
  | .setBIndHl b => Sys2Proof.Machine.execSetBIndHl b s
  -- ED page
  | .inRC r => Sys2Proof.Machine.execInRC r s
  | .inC => Sys2Proof.Machine.execInC s
  | .outCR r => Sys2Proof.Machine.execOutCR r s
  | .outC0 => Sys2Proof.Machine.execOutC0 s
  | .sbcHlRp p => Sys2Proof.Machine.execSbcHlRp p s
  | .adcHlRp p => Sys2Proof.Machine.execAdcHlRp p s
  | .ldIndNnRp p nn => Sys2Proof.Machine.execLdIndNnRp p nn s
  | .ldRpIndNn p nn => Sys2Proof.Machine.execLdRpIndNn p nn s
  | .neg y => Sys2Proof.Machine.execNeg y s
  | .retn y => Sys2Proof.Machine.execRetn y s
  | .reti => Sys2Proof.Machine.execReti s
  | .im y => Sys2Proof.Machine.execIm y s
  | .ldIA => Sys2Proof.Machine.execLdIA s
  | .ldRA => Sys2Proof.Machine.execLdRA s
  | .ldAI => Sys2Proof.Machine.execLdAI s
  | .ldAR => Sys2Proof.Machine.execLdAR s
  | .rrd => Sys2Proof.Machine.execRrd s
  | .rld => Sys2Proof.Machine.execRld s
  | .nopEd q => Sys2Proof.Machine.execNopEd q s
  | .ldi => Sys2Proof.Machine.execLdi s
  | .ldd => Sys2Proof.Machine.execLdd s
  | .ldir => Sys2Proof.Machine.execLdir s
  | .lddr => Sys2Proof.Machine.execLddr s
  | .cpi => Sys2Proof.Machine.execCpi s
  | .cpd => Sys2Proof.Machine.execCpd s
  | .cpir => Sys2Proof.Machine.execCpir s
  | .cpdr => Sys2Proof.Machine.execCpdr s
  | .ini => Sys2Proof.Machine.execIni s
  | .ind => Sys2Proof.Machine.execInd s
  | .inir => Sys2Proof.Machine.execInir s
  | .indr => Sys2Proof.Machine.execIndr s
  | .outi => Sys2Proof.Machine.execOuti s
  | .outd => Sys2Proof.Machine.execOutd s
  | .otir => Sys2Proof.Machine.execOtir s
  | .otdr => Sys2Proof.Machine.execOtdr s
  | .noni op => Sys2Proof.Machine.execNoni op s
  -- DD page
  | .addIxRp p => Sys2Proof.Machine.execAddIxRp p s
  | .ldIxNn nn => Sys2Proof.Machine.execLdIxNn nn s
  | .ldIndNnIx nn => Sys2Proof.Machine.execLdIndNnIx nn s
  | .incIx => Sys2Proof.Machine.execIncIx s
  | .incIxHalf h => Sys2Proof.Machine.execIncIxHalf h s
  | .decIxHalf h => Sys2Proof.Machine.execDecIxHalf h s
  | .ldIxHalfN h n => Sys2Proof.Machine.execLdIxHalfN h n s
  | .ldIxIndNn nn => Sys2Proof.Machine.execLdIxIndNn nn s
  | .decIx => Sys2Proof.Machine.execDecIx s
  | .incIndIxD d => Sys2Proof.Machine.execIncIndIxD d s
  | .decIndIxD d => Sys2Proof.Machine.execDecIndIxD d s
  | .ldIndIxDN d n => Sys2Proof.Machine.execLdIndIxDN d n s
  | .ldRIxHalf r h => Sys2Proof.Machine.execLdRIxHalf r h s
  | .ldIxHalfR h r => Sys2Proof.Machine.execLdIxHalfR h r s
  | .ldRIndIxD r d => Sys2Proof.Machine.execLdRIndIxD r d s
  | .ldIndIxDR d r => Sys2Proof.Machine.execLdIndIxDR d r s
  | .aluIxHalf o h => Sys2Proof.Machine.execAluIxHalf o h s
  | .aluIndIxD o d => Sys2Proof.Machine.execAluIndIxD o d s
  | .popIx => Sys2Proof.Machine.execPopIx s
  | .exIndSpIx => Sys2Proof.Machine.execExIndSpIx s
  | .pushIx => Sys2Proof.Machine.execPushIx s
  | .jpIndIx => Sys2Proof.Machine.execJpIndIx s
  | .ldSpIx => Sys2Proof.Machine.execLdSpIx s
  | .ddcbPrefix => Sys2Proof.Machine.execDdcbPrefix s
  | .rePrefixDd x => Sys2Proof.Machine.execRePrefixDd x s
  | .edAfterDd => Sys2Proof.Machine.execEdAfterDd s
  | .ddIgnored op => Sys2Proof.Machine.execDdIgnored op s
  -- FD page
  | .addIyRp p => Sys2Proof.Machine.execAddIyRp p s
  | .ldIyNn nn => Sys2Proof.Machine.execLdIyNn nn s
  | .ldIndNnIy nn => Sys2Proof.Machine.execLdIndNnIy nn s
  | .incIy => Sys2Proof.Machine.execIncIy s
  | .incIyHalf h => Sys2Proof.Machine.execIncIyHalf h s
  | .decIyHalf h => Sys2Proof.Machine.execDecIyHalf h s
  | .ldIyHalfN h n => Sys2Proof.Machine.execLdIyHalfN h n s
  | .ldIyIndNn nn => Sys2Proof.Machine.execLdIyIndNn nn s
  | .decIy => Sys2Proof.Machine.execDecIy s
  | .incIndIyD d => Sys2Proof.Machine.execIncIndIyD d s
  | .decIndIyD d => Sys2Proof.Machine.execDecIndIyD d s
  | .ldIndIyDN d n => Sys2Proof.Machine.execLdIndIyDN d n s
  | .ldRIyHalf r h => Sys2Proof.Machine.execLdRIyHalf r h s
  | .ldIyHalfR h r => Sys2Proof.Machine.execLdIyHalfR h r s
  | .ldRIndIyD r d => Sys2Proof.Machine.execLdRIndIyD r d s
  | .ldIndIyDR d r => Sys2Proof.Machine.execLdIndIyDR d r s
  | .aluIyHalf o h => Sys2Proof.Machine.execAluIyHalf o h s
  | .aluIndIyD o d => Sys2Proof.Machine.execAluIndIyD o d s
  | .popIy => Sys2Proof.Machine.execPopIy s
  | .exIndSpIy => Sys2Proof.Machine.execExIndSpIy s
  | .pushIy => Sys2Proof.Machine.execPushIy s
  | .jpIndIy => Sys2Proof.Machine.execJpIndIy s
  | .ldSpIy => Sys2Proof.Machine.execLdSpIy s
  | .fdcbPrefix => Sys2Proof.Machine.execFdcbPrefix s
  | .rePrefixFd x => Sys2Proof.Machine.execRePrefixFd x s
  | .edAfterFd => Sys2Proof.Machine.execEdAfterFd s
  | .fdIgnored op => Sys2Proof.Machine.execFdIgnored op s
  -- DDCB page
  | .rlcIx d => Sys2Proof.Machine.execRlcIx d s
  | .rlcIxR d r => Sys2Proof.Machine.execRlcIxR d r s
  | .rrcIx d => Sys2Proof.Machine.execRrcIx d s
  | .rrcIxR d r => Sys2Proof.Machine.execRrcIxR d r s
  | .rlIx d => Sys2Proof.Machine.execRlIx d s
  | .rlIxR d r => Sys2Proof.Machine.execRlIxR d r s
  | .rrIx d => Sys2Proof.Machine.execRrIx d s
  | .rrIxR d r => Sys2Proof.Machine.execRrIxR d r s
  | .slaIx d => Sys2Proof.Machine.execSlaIx d s
  | .slaIxR d r => Sys2Proof.Machine.execSlaIxR d r s
  | .sraIx d => Sys2Proof.Machine.execSraIx d s
  | .sraIxR d r => Sys2Proof.Machine.execSraIxR d r s
  | .sllIx d => Sys2Proof.Machine.execSllIx d s
  | .sllIxR d r => Sys2Proof.Machine.execSllIxR d r s
  | .srlIx d => Sys2Proof.Machine.execSrlIx d s
  | .srlIxR d r => Sys2Proof.Machine.execSrlIxR d r s
  | .bitIx d b z => Sys2Proof.Machine.execBitIx d b z s
  | .resIx d b => Sys2Proof.Machine.execResIx d b s
  | .resIxR d b r => Sys2Proof.Machine.execResIxR d b r s
  | .setIx d b => Sys2Proof.Machine.execSetIx d b s
  | .setIxR d b r => Sys2Proof.Machine.execSetIxR d b r s
  -- FDCB page
  | .rlcIy d => Sys2Proof.Machine.execRlcIy d s
  | .rlcIyR d r => Sys2Proof.Machine.execRlcIyR d r s
  | .rrcIy d => Sys2Proof.Machine.execRrcIy d s
  | .rrcIyR d r => Sys2Proof.Machine.execRrcIyR d r s
  | .rlIy d => Sys2Proof.Machine.execRlIy d s
  | .rlIyR d r => Sys2Proof.Machine.execRlIyR d r s
  | .rrIy d => Sys2Proof.Machine.execRrIy d s
  | .rrIyR d r => Sys2Proof.Machine.execRrIyR d r s
  | .slaIy d => Sys2Proof.Machine.execSlaIy d s
  | .slaIyR d r => Sys2Proof.Machine.execSlaIyR d r s
  | .sraIy d => Sys2Proof.Machine.execSraIy d s
  | .sraIyR d r => Sys2Proof.Machine.execSraIyR d r s
  | .sllIy d => Sys2Proof.Machine.execSllIy d s
  | .sllIyR d r => Sys2Proof.Machine.execSllIyR d r s
  | .srlIy d => Sys2Proof.Machine.execSrlIy d s
  | .srlIyR d r => Sys2Proof.Machine.execSrlIyR d r s
  | .bitIy d b z => Sys2Proof.Machine.execBitIy d b z s
  | .resIy d b => Sys2Proof.Machine.execResIy d b s
  | .resIyR d b r => Sys2Proof.Machine.execResIyR d b r s
  | .setIy d b => Sys2Proof.Machine.execSetIy d b s
  | .setIyR d b r => Sys2Proof.Machine.execSetIyR d b r s

end Sys2Proof.Machine
end

