-- ==== Sys2Proof/WellFormed.lean ====
section
/-! DEFINITION. The instructions the encoding admits. Every operand type of `Instr` but four holds only values the
spec encodes; the four checks below are the `constraint` and `default` entries of spec/opcode_table.json that
speak of a whole opcode byte. -/

namespace Sys2Proof

/-- The ED bytes that have no row of their own: 00 to 3F, 80 to 9F, A4 to A7, AC to AF, B4 to B7, BC to BF and
C0 to FF (R470). ED 77 and ED 7F have the row `nopEd`. -/
def isNoniByte (op : Byte) : Bool :=
  let n := op.toNat
  n ≤ 0x3F || (0x80 ≤ n && n ≤ 0x9F) || (0xA4 ≤ n && n ≤ 0xA7) || (0xAC ≤ n && n ≤ 0xAF)
    || (0xB4 ≤ n && n ≤ 0xB7) || (0xBC ≤ n && n ≤ 0xBF) || 0xC0 ≤ n

/-- The bytes with a row on the DD page, by the map of R166 (row by row of its high nibble): the indexed forms, the
prefixes DD, ED and FD, and CB. The FD page is identical. -/
def hasIndexRow (op : Byte) : Bool :=
  let lo := op.toNat % 16
  match op.toNat / 16 with
  | 0x0 | 0x1 => lo == 0x9
  | 0x2 => (0x1 ≤ lo && lo ≤ 0x6) || (0x9 ≤ lo && lo ≤ 0xE)
  | 0x3 => (0x4 ≤ lo && lo ≤ 0x6) || lo == 0x9
  | 0x4 | 0x5 => (0x4 ≤ lo && lo ≤ 0x6) || (0xC ≤ lo && lo ≤ 0xE)
  | 0x6 => true
  | 0x7 => (lo ≤ 0x7 && lo != 0x6) || (0xC ≤ lo && lo ≤ 0xE)
  | 0x8 | 0x9 | 0xA | 0xB => (0x4 ≤ lo && lo ≤ 0x6) || (0xC ≤ lo && lo ≤ 0xE)
  | 0xC => lo == 0xB
  | 0xD => lo == 0xD
  | 0xE => lo == 0x1 || lo == 0x3 || lo == 0x5 || lo == 0x9 || lo == 0xD
  | _ => lo == 0x9 || lo == 0xD

/-- The check: `RETN` has y ≠ 1, which is `RETI` (R458); a `NONI` or ignored-prefix row holds a byte without
another row on its page (R470, R571). -/
def Instr.wellFormed : Instr → Bool
  | .retn y => y != 1
  | .noni op => isNoniByte op
  | .ddIgnored op => !hasIndexRow op
  | .fdIgnored op => !hasIndexRow op
  | _ => true

end Sys2Proof
end

