-- ==== Sys2Proof/Decode.lean ====
section
/-! DEFINITION. The decoder of spec/30_encoding.md, total on any bytes, and the encoder, written from the same
tables. `decode page bytes` reads one row of the page from the bytes at PC; `Instr.selects` is the page a prefix
row leads to (R153). Every byte of every page is an instruction (R168), so the only rejection is that bytes are
missing. -/

namespace Sys2Proof

/-- Why a decode gives no instruction. `truncated`: the list of bytes ends inside the instruction (R168 leaves no
other reason). -/
inductive DecodeError where
  | truncated
  deriving DecidableEq, Repr

/-! ## Operand tables (R156 to R161) -/

/-- `r[k]`, k ≠ 6 (R156). -/
def Reg8.code : Reg8 → Nat
  | .b => 0 | .c => 1 | .d => 2 | .e => 3 | .h => 4 | .l => 5 | .a => 7

/-- The register of code k, k ≠ 6 (R156). -/
def Reg8.ofCode : Nat → Reg8
  | 0 => .b | 1 => .c | 2 => .d | 3 => .e | 4 => .h | 5 => .l | _ => .a

/-- `rp[k]` (R157). -/
def Rp.code : Rp → Nat
  | .bc => 0 | .de => 1 | .hl => 2 | .sp => 3

/-- The pair of code k (R157). -/
def Rp.ofCode : Nat → Rp
  | 0 => .bc | 1 => .de | 2 => .hl | _ => .sp

/-- `rp2[k]` (R158). -/
def Rp2.code : Rp2 → Nat
  | .bc => 0 | .de => 1 | .hl => 2 | .af => 3

/-- The pair of code k (R158). -/
def Rp2.ofCode : Nat → Rp2
  | 0 => .bc | 1 => .de | 2 => .hl | _ => .af

/-- op[4] of `LD A,(rp)` and `LD (rp),A` (R203, R205). -/
def BcDe.code : BcDe → Nat
  | .bc => 0 | .de => 1

/-- The pair of op[4] (R203, R205). -/
def BcDe.ofCode : Nat → BcDe
  | 0 => .bc | _ => .de

/-- `cc[k]` (R159). -/
def Cond.code : Cond → Nat
  | .nz => 0 | .z => 1 | .nc => 2 | .c => 3 | .po => 4 | .pe => 5 | .p => 6 | .m => 7

/-- The condition of code k (R159). -/
def Cond.ofCode : Nat → Cond
  | 0 => .nz | 1 => .z | 2 => .nc | 3 => .c | 4 => .po | 5 => .pe | 6 => .p | _ => .m

/-- The condition of `JR cc,e`, in op[4:3] (R159). -/
def JrCond.code : JrCond → Nat
  | .nz => 0 | .z => 1 | .nc => 2 | .c => 3

/-- The condition of op[4:3] (R159). -/
def JrCond.ofCode : Nat → JrCond
  | 0 => .nz | 1 => .z | 2 => .nc | _ => .c

/-- `alu[k]` (R160). -/
def AluOp.code : AluOp → Nat
  | .add => 0 | .adc => 1 | .sub => 2 | .sbc => 3 | .and => 4 | .xor => 5 | .or => 6 | .cp => 7

/-- The operation of code k (R160). -/
def AluOp.ofCode : Nat → AluOp
  | 0 => .add | 1 => .adc | 2 => .sub | 3 => .sbc | 4 => .and | 5 => .xor | 6 => .or | _ => .cp

/-- `rot[k]` (R161). -/
def RotOp.code : RotOp → Nat
  | .rlc => 0 | .rrc => 1 | .rl => 2 | .rr => 3 | .sla => 4 | .sra => 5 | .sll => 6 | .srl => 7

/-- The operation of code k (R161). -/
def RotOp.ofCode : Nat → RotOp
  | 0 => .rlc | 1 => .rrc | 2 => .rl | 3 => .rr | 4 => .sla | 5 => .sra | 6 => .sll | _ => .srl

/-- z = 4 is IXH, z = 5 is IXL (R591). -/
def Half.code : Half → Nat
  | .high => 0 | .low => 1

/-- The half of z - 4 (R591). -/
def Half.ofCode : Nat → Half
  | 0 => .high | _ => .low

/-- `rp[k]` on a DD or FD page (R157). -/
def RpX.code : RpX → Nat
  | .bc => 0 | .de => 1 | .idx => 2 | .sp => 3

/-- The pair of code k on a DD or FD page (R157). -/
def RpX.ofCode : Nat → RpX
  | 0 => .bc | 1 => .de | 2 => .idx | _ => .sp

/-- `r[k]` with H and L replaced (R591). -/
def Reg8X.code : Reg8X → Nat
  | .b => 0 | .c => 1 | .d => 2 | .e => 3 | .idxH => 4 | .idxL => 5 | .a => 7

/-- The register of code k with H and L replaced (R591). -/
def Reg8X.ofCode : Nat → Reg8X
  | 0 => .b | 1 => .c | 2 => .d | 3 => .e | 4 => .idxH | 5 => .idxL | _ => .a

/-- The codes of B, C, D, E and A (R591). -/
def Reg8NoHL.code : Reg8NoHL → Nat
  | .b => 0 | .c => 1 | .d => 2 | .e => 3 | .a => 7

/-- The register of code k, k ∈ 0, 1, 2, 3, 7 (R591). -/
def Reg8NoHL.ofCode : Nat → Reg8NoHL
  | 0 => .b | 1 => .c | 2 => .d | 3 => .e | _ => .a

/-! ## The rows of an operation table -/

/-- `op r`: the row of `alu[k]` with a register operand (R160, R260). -/
def AluOp.onR : AluOp → Reg8 → Instr
  | .add => .addAR
  | .adc => .adcAR
  | .sub => .subR
  | .sbc => .sbcAR
  | .and => .andR
  | .xor => .xorR
  | .or => .orR
  | .cp => .cpR

/-- `op (HL)`: the row of `alu[k]` with the operand (HL) (R260). -/
def AluOp.onIndHl : AluOp → Instr
  | .add => .addAIndHl
  | .adc => .adcAIndHl
  | .sub => .subIndHl
  | .sbc => .sbcAIndHl
  | .and => .andIndHl
  | .xor => .xorIndHl
  | .or => .orIndHl
  | .cp => .cpIndHl

/-- `op n`: the row of `alu[k]` with an immediate operand (R260). -/
def AluOp.onN : AluOp → Byte → Instr
  | .add => .addAN
  | .adc => .adcAN
  | .sub => .subN
  | .sbc => .sbcAN
  | .and => .andN
  | .xor => .xorN
  | .or => .orN
  | .cp => .cpN

/-- The CB-page row of `rot[k]` with a register operand (R164). -/
def RotOp.onR : RotOp → Reg8 → Instr
  | .rlc => .rlcR
  | .rrc => .rrcR
  | .rl => .rlR
  | .rr => .rrR
  | .sla => .slaR
  | .sra => .sraR
  | .sll => .sllR
  | .srl => .srlR

/-- The CB-page row of `rot[k]` with the operand (HL) (R164). -/
def RotOp.onIndHl : RotOp → Instr
  | .rlc => .rlcIndHl
  | .rrc => .rrcIndHl
  | .rl => .rlIndHl
  | .rr => .rrIndHl
  | .sla => .slaIndHl
  | .sra => .sraIndHl
  | .sll => .sllIndHl
  | .srl => .srlIndHl

/-- The row `rot (IX+d)` (R621). -/
def RotOp.onIx : RotOp → Byte → Instr
  | .rlc => .rlcIx
  | .rrc => .rrcIx
  | .rl => .rlIx
  | .rr => .rrIx
  | .sla => .slaIx
  | .sra => .sraIx
  | .sll => .sllIx
  | .srl => .srlIx

/-- The row `rot (IX+d)->r` (R622). -/
def RotOp.onIxR : RotOp → Byte → Reg8 → Instr
  | .rlc => .rlcIxR
  | .rrc => .rrcIxR
  | .rl => .rlIxR
  | .rr => .rrIxR
  | .sla => .slaIxR
  | .sra => .sraIxR
  | .sll => .sllIxR
  | .srl => .srlIxR

/-- The row `rot (IY+d)` (R621). -/
def RotOp.onIy : RotOp → Byte → Instr
  | .rlc => .rlcIy
  | .rrc => .rrcIy
  | .rl => .rlIy
  | .rr => .rrIy
  | .sla => .slaIy
  | .sra => .sraIy
  | .sll => .sllIy
  | .srl => .srlIy

/-- The row `rot (IY+d)->r` (R622). -/
def RotOp.onIyR : RotOp → Byte → Reg8 → Instr
  | .rlc => .rlcIyR
  | .rrc => .rrcIyR
  | .rl => .rlIyR
  | .rr => .rrIyR
  | .sla => .slaIyR
  | .sra => .sraIyR
  | .sll => .sllIyR
  | .srl => .srlIyR

/-! ## Reading operand bytes (R155) -/

/-- One byte after the opcode. -/
def withByte (bs : List Byte) (f : Byte → Instr) : Except DecodeError Instr :=
  match bs with
  | n :: _ => .ok (f n)
  | [] => .error .truncated

/-- Two bytes after the opcode, in address order. -/
def withTwo (bs : List Byte) (f : Byte → Byte → Instr) : Except DecodeError Instr :=
  match bs with
  | d :: n :: _ => .ok (f d n)
  | _ => .error .truncated

/-- `nn`: two bytes, low byte first (R114, R155). -/
def withWord (bs : List Byte) (f : Word → Instr) : Except DecodeError Instr :=
  withTwo bs fun lo hi => f (cat hi lo)

/-- An operand code that is a register, or `(HL)` or `(IX+d)` when it is 6 (R156). -/
def regOrMem {α : Type} (k : Nat) (mem : α) (reg : Reg8 → α) : α :=
  if k = 6 then mem else reg (Reg8.ofCode k)

/-! ## The pages -/

/-- The base page (R163). -/
def decodeBase (op : Byte) (bs : List Byte) : Except DecodeError Instr :=
  let y := fieldY op
  let z := fieldZ op
  let p := fieldP op
  let q := fieldQ op
  match fieldX op with
  | 0 =>
    match z with
    | 0 =>
      match y with
      | 0 => .ok .nop
      | 1 => .ok .exAfAf
      | 2 => withByte bs .djnz
      | 3 => withByte bs .jr
      | _ => withByte bs (.jrCc (JrCond.ofCode (y - 4)))
    | 1 => if q = 0 then withWord bs (.ldRpNn (Rp.ofCode p)) else .ok (.addHlRp (Rp.ofCode p))
    | 2 =>
      match y with
      | 0 | 2 => .ok (.ldIndRpA (BcDe.ofCode p))
      | 1 | 3 => .ok (.ldAIndRp (BcDe.ofCode p))
      | 4 => withWord bs .ldIndNnHl
      | 5 => withWord bs .ldHlIndNn
      | 6 => withWord bs .ldIndNnA
      | _ => withWord bs .ldAIndNn
    | 3 => if q = 0 then .ok (.incRp (Rp.ofCode p)) else .ok (.decRp (Rp.ofCode p))
    | 4 => .ok (regOrMem y .incIndHl .incR)
    | 5 => .ok (regOrMem y .decIndHl .decR)
    | 6 => withByte bs (regOrMem y .ldIndHlN .ldRN)
    | _ =>
      match y with
      | 0 => .ok .rlca
      | 1 => .ok .rrca
      | 2 => .ok .rla
      | 3 => .ok .rra
      | 4 => .ok .daa
      | 5 => .ok .cpl
      | 6 => .ok .scf
      | _ => .ok .ccf
  | 1 =>
    if y = 6 then .ok (regOrMem z .halt .ldIndHlR)
    else .ok (regOrMem z (.ldRIndHl (Reg8.ofCode y)) (.ldRR (Reg8.ofCode y)))
  | 2 => .ok (regOrMem z (AluOp.ofCode y).onIndHl (AluOp.ofCode y).onR)
  | _ =>
    match z with
    | 0 => .ok (.retCc (Cond.ofCode y))
    | 1 =>
      if q = 0 then .ok (.popRp2 (Rp2.ofCode p))
      else
        match p with
        | 0 => .ok .ret
        | 1 => .ok .exx
        | 2 => .ok .jpIndHl
        | _ => .ok .ldSpHl
    | 2 => withWord bs (.jpCcNn (Cond.ofCode y))
    | 3 =>
      match y with
      | 0 => withWord bs .jpNn
      | 1 => .ok .cbPrefix
      | 2 => withByte bs .outNA
      | 3 => withByte bs .inAN
      | 4 => .ok .exIndSpHl
      | 5 => .ok .exDeHl
      | 6 => .ok .di
      | _ => .ok .ei
    | 4 => withWord bs (.callCcNn (Cond.ofCode y))
    | 5 =>
      if q = 0 then .ok (.pushRp2 (Rp2.ofCode p))
      else
        match p with
        | 0 => withWord bs .callNn
        | 1 => .ok .ddPrefix
        | 2 => .ok .edPrefix
        | _ => .ok .fdPrefix
    | 6 => withByte bs (AluOp.ofCode y).onN
    | _ => .ok (.rst (BitVec.ofNat 3 y))

/-- The CB page (R164). -/
def decodeCb (op : Byte) : Instr :=
  let y := fieldY op
  let z := fieldZ op
  let b := BitVec.ofNat 3 y
  match fieldX op with
  | 0 => regOrMem z (RotOp.ofCode y).onIndHl (RotOp.ofCode y).onR
  | 1 => regOrMem z (.bitBIndHl b) (.bitBR b)
  | 2 => regOrMem z (.resBIndHl b) (.resBR b)
  | _ => regOrMem z (.setBIndHl b) (.setBR b)

/-- The block instructions: y = 4 to 7 and z = 0 to 3 (R520). -/
def decodeBlock (y z : Nat) : Instr :=
  match y, z with
  | 4, 0 => .ldi | 5, 0 => .ldd | 6, 0 => .ldir | _, 0 => .lddr
  | 4, 1 => .cpi | 5, 1 => .cpd | 6, 1 => .cpir | _, 1 => .cpdr
  | 4, 2 => .ini | 5, 2 => .ind | 6, 2 => .inir | _, 2 => .indr
  | 4, _ => .outi | 5, _ => .outd | 6, _ => .otir | _, _ => .otdr

/-- The ED page (R165). -/
def decodeEd (op : Byte) (bs : List Byte) : Except DecodeError Instr :=
  let y := fieldY op
  let z := fieldZ op
  let p := fieldP op
  let q := fieldQ op
  match fieldX op with
  | 1 =>
    match z with
    | 0 => .ok (regOrMem y .inC .inRC)
    | 1 => .ok (regOrMem y .outC0 .outCR)
    | 2 => if q = 0 then .ok (.sbcHlRp (Rp.ofCode p)) else .ok (.adcHlRp (Rp.ofCode p))
    | 3 =>
      if q = 0 then withWord bs (.ldIndNnRp (Rp.ofCode p)) else withWord bs (.ldRpIndNn (Rp.ofCode p))
    | 4 => .ok (.neg (BitVec.ofNat 3 y))
    | 5 => if y = 1 then .ok .reti else .ok (.retn (BitVec.ofNat 3 y))
    | 6 => .ok (.im (BitVec.ofNat 3 y))
    | _ =>
      match y with
      | 0 => .ok .ldIA
      | 1 => .ok .ldRA
      | 2 => .ok .ldAI
      | 3 => .ok .ldAR
      | 4 => .ok .rrd
      | 5 => .ok .rld
      | _ => .ok (.nopEd (BitVec.ofNat 1 q))
  | 2 => if 4 ≤ y ∧ z ≤ 3 then .ok (decodeBlock y z) else .ok (.noni op)
  | _ => .ok (.noni op)

/-- The DD page (R166); a byte with no DD row is `ddIgnored` (R571). -/
def decodeDd (op : Byte) (bs : List Byte) : Except DecodeError Instr :=
  let y := fieldY op
  let z := fieldZ op
  let p := fieldP op
  let q := fieldQ op
  match fieldX op with
  | 0 =>
    match z with
    | 1 =>
      if q = 1 then .ok (.addIxRp (RpX.ofCode p))
      else if p = 2 then withWord bs .ldIxNn else .ok (.ddIgnored op)
    | 2 =>
      match y with
      | 4 => withWord bs .ldIndNnIx
      | 5 => withWord bs .ldIxIndNn
      | _ => .ok (.ddIgnored op)
    | 3 =>
      match y with
      | 4 => .ok .incIx
      | 5 => .ok .decIx
      | _ => .ok (.ddIgnored op)
    | 4 =>
      match y with
      | 4 | 5 => .ok (.incIxHalf (Half.ofCode (y - 4)))
      | 6 => withByte bs .incIndIxD
      | _ => .ok (.ddIgnored op)
    | 5 =>
      match y with
      | 4 | 5 => .ok (.decIxHalf (Half.ofCode (y - 4)))
      | 6 => withByte bs .decIndIxD
      | _ => .ok (.ddIgnored op)
    | 6 =>
      match y with
      | 4 | 5 => withByte bs (.ldIxHalfN (Half.ofCode (y - 4)))
      | 6 => withTwo bs .ldIndIxDN
      | _ => .ok (.ddIgnored op)
    | _ => .ok (.ddIgnored op)
  | 1 =>
    match y with
    | 6 => if z = 6 then .ok (.ddIgnored op) else withByte bs fun d => .ldIndIxDR d (Reg8.ofCode z)
    | 4 | 5 =>
      if z = 6 then withByte bs (.ldRIndIxD (Reg8.ofCode y))
      else .ok (.ldIxHalfR (Half.ofCode (y - 4)) (Reg8X.ofCode z))
    | _ =>
      match z with
      | 4 | 5 => .ok (.ldRIxHalf (Reg8NoHL.ofCode y) (Half.ofCode (z - 4)))
      | 6 => withByte bs (.ldRIndIxD (Reg8.ofCode y))
      | _ => .ok (.ddIgnored op)
  | 2 =>
    match z with
    | 4 | 5 => .ok (.aluIxHalf (AluOp.ofCode y) (Half.ofCode (z - 4)))
    | 6 => withByte bs (.aluIndIxD (AluOp.ofCode y))
    | _ => .ok (.ddIgnored op)
  | _ =>
    match op.toNat with
    | 0xE1 => .ok .popIx
    | 0xE3 => .ok .exIndSpIx
    | 0xE5 => .ok .pushIx
    | 0xE9 => .ok .jpIndIx
    | 0xF9 => .ok .ldSpIx
    | 0xCB => .ok .ddcbPrefix
    | 0xDD => .ok (.rePrefixDd .ix)
    | 0xFD => .ok (.rePrefixDd .iy)
    | 0xED => .ok .edAfterDd
    | _ => .ok (.ddIgnored op)

/-- The FD page (R166, with IY); a byte with no FD row is `fdIgnored` (R571). -/
def decodeFd (op : Byte) (bs : List Byte) : Except DecodeError Instr :=
  let y := fieldY op
  let z := fieldZ op
  let p := fieldP op
  let q := fieldQ op
  match fieldX op with
  | 0 =>
    match z with
    | 1 =>
      if q = 1 then .ok (.addIyRp (RpX.ofCode p))
      else if p = 2 then withWord bs .ldIyNn else .ok (.fdIgnored op)
    | 2 =>
      match y with
      | 4 => withWord bs .ldIndNnIy
      | 5 => withWord bs .ldIyIndNn
      | _ => .ok (.fdIgnored op)
    | 3 =>
      match y with
      | 4 => .ok .incIy
      | 5 => .ok .decIy
      | _ => .ok (.fdIgnored op)
    | 4 =>
      match y with
      | 4 | 5 => .ok (.incIyHalf (Half.ofCode (y - 4)))
      | 6 => withByte bs .incIndIyD
      | _ => .ok (.fdIgnored op)
    | 5 =>
      match y with
      | 4 | 5 => .ok (.decIyHalf (Half.ofCode (y - 4)))
      | 6 => withByte bs .decIndIyD
      | _ => .ok (.fdIgnored op)
    | 6 =>
      match y with
      | 4 | 5 => withByte bs (.ldIyHalfN (Half.ofCode (y - 4)))
      | 6 => withTwo bs .ldIndIyDN
      | _ => .ok (.fdIgnored op)
    | _ => .ok (.fdIgnored op)
  | 1 =>
    match y with
    | 6 => if z = 6 then .ok (.fdIgnored op) else withByte bs fun d => .ldIndIyDR d (Reg8.ofCode z)
    | 4 | 5 =>
      if z = 6 then withByte bs (.ldRIndIyD (Reg8.ofCode y))
      else .ok (.ldIyHalfR (Half.ofCode (y - 4)) (Reg8X.ofCode z))
    | _ =>
      match z with
      | 4 | 5 => .ok (.ldRIyHalf (Reg8NoHL.ofCode y) (Half.ofCode (z - 4)))
      | 6 => withByte bs (.ldRIndIyD (Reg8.ofCode y))
      | _ => .ok (.fdIgnored op)
  | 2 =>
    match z with
    | 4 | 5 => .ok (.aluIyHalf (AluOp.ofCode y) (Half.ofCode (z - 4)))
    | 6 => withByte bs (.aluIndIyD (AluOp.ofCode y))
    | _ => .ok (.fdIgnored op)
  | _ =>
    match op.toNat with
    | 0xE1 => .ok .popIy
    | 0xE3 => .ok .exIndSpIy
    | 0xE5 => .ok .pushIy
    | 0xE9 => .ok .jpIndIy
    | 0xF9 => .ok .ldSpIy
    | 0xCB => .ok .fdcbPrefix
    | 0xDD => .ok (.rePrefixFd .ix)
    | 0xFD => .ok (.rePrefixFd .iy)
    | 0xED => .ok .edAfterFd
    | _ => .ok (.fdIgnored op)

/-- The DDCB page (R167): the displacement, then the opcode (R620). -/
def decodeDdcb (d op : Byte) : Instr :=
  let y := fieldY op
  let z := fieldZ op
  let b := BitVec.ofNat 3 y
  match fieldX op with
  | 0 => regOrMem z ((RotOp.ofCode y).onIx d) ((RotOp.ofCode y).onIxR d)
  | 1 => .bitIx d b (BitVec.ofNat 3 z)
  | 2 => regOrMem z (.resIx d b) (.resIxR d b)
  | _ => regOrMem z (.setIx d b) (.setIxR d b)

/-- The FDCB page (R167, with IY): the displacement, then the opcode (R620). -/
def decodeFdcb (d op : Byte) : Instr :=
  let y := fieldY op
  let z := fieldZ op
  let b := BitVec.ofNat 3 y
  match fieldX op with
  | 0 => regOrMem z ((RotOp.ofCode y).onIy d) ((RotOp.ofCode y).onIyR d)
  | 1 => .bitIy d b (BitVec.ofNat 3 z)
  | 2 => regOrMem z (.resIy d b) (.resIyR d b)
  | _ => regOrMem z (.setIy d b) (.setIyR d b)

/-- One row of page `pg`, read from the bytes at PC. Registers, flags and mode are no inputs (R175). -/
def decode (pg : Page) (bs : List Byte) : Except DecodeError Instr :=
  match bs with
  | [] => .error .truncated
  | b :: bs =>
    match pg with
    | .base => decodeBase b bs
    | .cb => .ok (decodeCb b)
    | .ed => decodeEd b bs
    | .dd => decodeDd b bs
    | .fd => decodeFd b bs
    | .ddcb => withByte bs (decodeDdcb b)
    | .fdcb => withByte bs (decodeFdcb b)

/-! ## Prefix rows -/

/-- The DD or FD page (R152). -/
def Index.page : Index → Page
  | .ix => .dd
  | .iy => .fd

/-- The page on which the rest of the instruction is decoded, for a row that is only a prefix (R153, R596); `none`
for a row that ends the instruction. A prefix that a byte without an index row ignores leads back to the base page
(R571). -/
def Instr.selects : Instr → Option Page
  | .cbPrefix => some .cb
  | .edPrefix => some .ed
  | .ddPrefix => some .dd
  | .fdPrefix => some .fd
  | .ddcbPrefix => some .ddcb
  | .fdcbPrefix => some .fdcb
  | .rePrefixDd x => some x.page
  | .rePrefixFd x => some x.page
  | .edAfterDd => some .ed
  | .edAfterFd => some .ed
  | .ddIgnored _ => some .base
  | .fdIgnored _ => some .base
  | _ => none

/-! ## The encoder -/

/-- The page of a row (the `page` column of spec/opcode_table.json). -/
def Instr.page : Instr → Page
  | .nop => .base
  | .exAfAf => .base
  | .djnz _ => .base
  | .jr _ => .base
  | .jrCc _ _ => .base
  | .ldRpNn _ _ => .base
  | .addHlRp _ => .base
  | .ldIndRpA _ => .base
  | .ldIndNnHl _ => .base
  | .ldIndNnA _ => .base
  | .ldAIndRp _ => .base
  | .ldHlIndNn _ => .base
  | .ldAIndNn _ => .base
  | .incRp _ => .base
  | .decRp _ => .base
  | .incR _ => .base
  | .incIndHl => .base
  | .decR _ => .base
  | .decIndHl => .base
  | .ldRN _ _ => .base
  | .ldIndHlN _ => .base
  | .rlca => .base
  | .rrca => .base
  | .rla => .base
  | .rra => .base
  | .daa => .base
  | .cpl => .base
  | .scf => .base
  | .ccf => .base
  | .ldRR _ _ => .base
  | .ldRIndHl _ => .base
  | .ldIndHlR _ => .base
  | .halt => .base
  | .addAR _ => .base
  | .addAIndHl => .base
  | .addAN _ => .base
  | .adcAR _ => .base
  | .adcAIndHl => .base
  | .adcAN _ => .base
  | .subR _ => .base
  | .subIndHl => .base
  | .subN _ => .base
  | .sbcAR _ => .base
  | .sbcAIndHl => .base
  | .sbcAN _ => .base
  | .andR _ => .base
  | .andIndHl => .base
  | .andN _ => .base
  | .xorR _ => .base
  | .xorIndHl => .base
  | .xorN _ => .base
  | .orR _ => .base
  | .orIndHl => .base
  | .orN _ => .base
  | .cpR _ => .base
  | .cpIndHl => .base
  | .cpN _ => .base
  | .retCc _ => .base
  | .popRp2 _ => .base
  | .ret => .base
  | .exx => .base
  | .jpIndHl => .base
  | .ldSpHl => .base
  | .jpCcNn _ _ => .base
  | .jpNn _ => .base
  | .cbPrefix => .base
  | .outNA _ => .base
  | .inAN _ => .base
  | .exIndSpHl => .base
  | .exDeHl => .base
  | .di => .base
  | .ei => .base
  | .callCcNn _ _ => .base
  | .pushRp2 _ => .base
  | .callNn _ => .base
  | .ddPrefix => .base
  | .edPrefix => .base
  | .fdPrefix => .base
  | .rst _ => .base
  | .rlcR _ => .cb
  | .rlcIndHl => .cb
  | .rrcR _ => .cb
  | .rrcIndHl => .cb
  | .rlR _ => .cb
  | .rlIndHl => .cb
  | .rrR _ => .cb
  | .rrIndHl => .cb
  | .slaR _ => .cb
  | .slaIndHl => .cb
  | .sraR _ => .cb
  | .sraIndHl => .cb
  | .sllR _ => .cb
  | .sllIndHl => .cb
  | .srlR _ => .cb
  | .srlIndHl => .cb
  | .bitBR _ _ => .cb
  | .bitBIndHl _ => .cb
  | .resBR _ _ => .cb
  | .resBIndHl _ => .cb
  | .setBR _ _ => .cb
  | .setBIndHl _ => .cb
  | .inRC _ => .ed
  | .inC => .ed
  | .outCR _ => .ed
  | .outC0 => .ed
  | .sbcHlRp _ => .ed
  | .adcHlRp _ => .ed
  | .ldIndNnRp _ _ => .ed
  | .ldRpIndNn _ _ => .ed
  | .neg _ => .ed
  | .retn _ => .ed
  | .reti => .ed
  | .im _ => .ed
  | .ldIA => .ed
  | .ldRA => .ed
  | .ldAI => .ed
  | .ldAR => .ed
  | .rrd => .ed
  | .rld => .ed
  | .nopEd _ => .ed
  | .ldi => .ed
  | .ldd => .ed
  | .ldir => .ed
  | .lddr => .ed
  | .cpi => .ed
  | .cpd => .ed
  | .cpir => .ed
  | .cpdr => .ed
  | .ini => .ed
  | .ind => .ed
  | .inir => .ed
  | .indr => .ed
  | .outi => .ed
  | .outd => .ed
  | .otir => .ed
  | .otdr => .ed
  | .noni _ => .ed
  | .addIxRp _ => .dd
  | .ldIxNn _ => .dd
  | .ldIndNnIx _ => .dd
  | .incIx => .dd
  | .incIxHalf _ => .dd
  | .decIxHalf _ => .dd
  | .ldIxHalfN _ _ => .dd
  | .ldIxIndNn _ => .dd
  | .decIx => .dd
  | .incIndIxD _ => .dd
  | .decIndIxD _ => .dd
  | .ldIndIxDN _ _ => .dd
  | .ldRIxHalf _ _ => .dd
  | .ldIxHalfR _ _ => .dd
  | .ldRIndIxD _ _ => .dd
  | .ldIndIxDR _ _ => .dd
  | .aluIxHalf _ _ => .dd
  | .aluIndIxD _ _ => .dd
  | .popIx => .dd
  | .exIndSpIx => .dd
  | .pushIx => .dd
  | .jpIndIx => .dd
  | .ldSpIx => .dd
  | .ddcbPrefix => .dd
  | .rePrefixDd _ => .dd
  | .edAfterDd => .dd
  | .ddIgnored _ => .dd
  | .addIyRp _ => .fd
  | .ldIyNn _ => .fd
  | .ldIndNnIy _ => .fd
  | .incIy => .fd
  | .incIyHalf _ => .fd
  | .decIyHalf _ => .fd
  | .ldIyHalfN _ _ => .fd
  | .ldIyIndNn _ => .fd
  | .decIy => .fd
  | .incIndIyD _ => .fd
  | .decIndIyD _ => .fd
  | .ldIndIyDN _ _ => .fd
  | .ldRIyHalf _ _ => .fd
  | .ldIyHalfR _ _ => .fd
  | .ldRIndIyD _ _ => .fd
  | .ldIndIyDR _ _ => .fd
  | .aluIyHalf _ _ => .fd
  | .aluIndIyD _ _ => .fd
  | .popIy => .fd
  | .exIndSpIy => .fd
  | .pushIy => .fd
  | .jpIndIy => .fd
  | .ldSpIy => .fd
  | .fdcbPrefix => .fd
  | .rePrefixFd _ => .fd
  | .edAfterFd => .fd
  | .fdIgnored _ => .fd
  | .rlcIx _ => .ddcb
  | .rlcIxR _ _ => .ddcb
  | .rrcIx _ => .ddcb
  | .rrcIxR _ _ => .ddcb
  | .rlIx _ => .ddcb
  | .rlIxR _ _ => .ddcb
  | .rrIx _ => .ddcb
  | .rrIxR _ _ => .ddcb
  | .slaIx _ => .ddcb
  | .slaIxR _ _ => .ddcb
  | .sraIx _ => .ddcb
  | .sraIxR _ _ => .ddcb
  | .sllIx _ => .ddcb
  | .sllIxR _ _ => .ddcb
  | .srlIx _ => .ddcb
  | .srlIxR _ _ => .ddcb
  | .bitIx _ _ _ => .ddcb
  | .resIx _ _ => .ddcb
  | .resIxR _ _ _ => .ddcb
  | .setIx _ _ => .ddcb
  | .setIxR _ _ _ => .ddcb
  | .rlcIy _ => .fdcb
  | .rlcIyR _ _ => .fdcb
  | .rrcIy _ => .fdcb
  | .rrcIyR _ _ => .fdcb
  | .rlIy _ => .fdcb
  | .rlIyR _ _ => .fdcb
  | .rrIy _ => .fdcb
  | .rrIyR _ _ => .fdcb
  | .slaIy _ => .fdcb
  | .slaIyR _ _ => .fdcb
  | .sraIy _ => .fdcb
  | .sraIyR _ _ => .fdcb
  | .sllIy _ => .fdcb
  | .sllIyR _ _ => .fdcb
  | .srlIy _ => .fdcb
  | .srlIyR _ _ => .fdcb
  | .bitIy _ _ _ => .fdcb
  | .resIy _ _ => .fdcb
  | .resIyR _ _ _ => .fdcb
  | .setIy _ _ => .fdcb
  | .setIyR _ _ _ => .fdcb

/-- The prefix bytes that lead to a page from the start of an instruction (R152). -/
def Page.leadIn : Page → List Byte
  | .base => []
  | .cb => [0xCB]
  | .ed => [0xED]
  | .dd => [0xDD]
  | .fd => [0xFD]
  | .ddcb => [0xDD, 0xCB]
  | .fdcb => [0xFD, 0xCB]

/-- An opcode byte from a base value and its operand fields. -/
def opByte (n : Nat) : Byte := BitVec.ofNat 8 n

/-- `op nn_lo nn_hi` (R154). -/
def opWord (n : Nat) (nn : Word) : List Byte := [opByte n, lo8 nn, hi8 nn]

/-- The bytes of a row on its own page, without the bytes that lead to the page: the `match` of its table row with
its fields filled in, then its operand bytes (R154). An ignored prefix takes no byte of its own beyond the prefix:
the byte it is decided on belongs to the base row that follows, and stands here as what the decoder looks at. -/
def encode : Instr → List Byte
  | .nop => [0x00]
  | .exAfAf => [0x08]
  | .djnz e => [0x10, e]
  | .jr e => [0x18, e]
  | .jrCc cc e => [opByte (0x20 + 8 * cc.code), e]
  | .ldRpNn p nn => opWord (0x01 + 16 * p.code) nn
  | .addHlRp p => [opByte (0x09 + 16 * p.code)]
  | .ldIndRpA p => [opByte (0x02 + 16 * p.code)]
  | .ldIndNnHl nn => opWord 0x22 nn
  | .ldIndNnA nn => opWord 0x32 nn
  | .ldAIndRp p => [opByte (0x0A + 16 * p.code)]
  | .ldHlIndNn nn => opWord 0x2A nn
  | .ldAIndNn nn => opWord 0x3A nn
  | .incRp p => [opByte (0x03 + 16 * p.code)]
  | .decRp p => [opByte (0x0B + 16 * p.code)]
  | .incR r => [opByte (0x04 + 8 * r.code)]
  | .incIndHl => [0x34]
  | .decR r => [opByte (0x05 + 8 * r.code)]
  | .decIndHl => [0x35]
  | .ldRN r n => [opByte (0x06 + 8 * r.code), n]
  | .ldIndHlN n => [0x36, n]
  | .rlca => [0x07]
  | .rrca => [0x0F]
  | .rla => [0x17]
  | .rra => [0x1F]
  | .daa => [0x27]
  | .cpl => [0x2F]
  | .scf => [0x37]
  | .ccf => [0x3F]
  | .ldRR r r' => [opByte (0x40 + 8 * r.code + r'.code)]
  | .ldRIndHl r => [opByte (0x46 + 8 * r.code)]
  | .ldIndHlR r => [opByte (0x70 + r.code)]
  | .halt => [0x76]
  | .addAR r => [opByte (0x80 + r.code)]
  | .addAIndHl => [0x86]
  | .addAN n => [0xC6, n]
  | .adcAR r => [opByte (0x88 + r.code)]
  | .adcAIndHl => [0x8E]
  | .adcAN n => [0xCE, n]
  | .subR r => [opByte (0x90 + r.code)]
  | .subIndHl => [0x96]
  | .subN n => [0xD6, n]
  | .sbcAR r => [opByte (0x98 + r.code)]
  | .sbcAIndHl => [0x9E]
  | .sbcAN n => [0xDE, n]
  | .andR r => [opByte (0xA0 + r.code)]
  | .andIndHl => [0xA6]
  | .andN n => [0xE6, n]
  | .xorR r => [opByte (0xA8 + r.code)]
  | .xorIndHl => [0xAE]
  | .xorN n => [0xEE, n]
  | .orR r => [opByte (0xB0 + r.code)]
  | .orIndHl => [0xB6]
  | .orN n => [0xF6, n]
  | .cpR r => [opByte (0xB8 + r.code)]
  | .cpIndHl => [0xBE]
  | .cpN n => [0xFE, n]
  | .retCc cc => [opByte (0xC0 + 8 * cc.code)]
  | .popRp2 p => [opByte (0xC1 + 16 * p.code)]
  | .ret => [0xC9]
  | .exx => [0xD9]
  | .jpIndHl => [0xE9]
  | .ldSpHl => [0xF9]
  | .jpCcNn cc nn => opWord (0xC2 + 8 * cc.code) nn
  | .jpNn nn => opWord 0xC3 nn
  | .cbPrefix => [0xCB]
  | .outNA n => [0xD3, n]
  | .inAN n => [0xDB, n]
  | .exIndSpHl => [0xE3]
  | .exDeHl => [0xEB]
  | .di => [0xF3]
  | .ei => [0xFB]
  | .callCcNn cc nn => opWord (0xC4 + 8 * cc.code) nn
  | .pushRp2 p => [opByte (0xC5 + 16 * p.code)]
  | .callNn nn => opWord 0xCD nn
  | .ddPrefix => [0xDD]
  | .edPrefix => [0xED]
  | .fdPrefix => [0xFD]
  | .rst y => [opByte (0xC7 + 8 * y.toNat)]
  | .rlcR r => [opByte (0x00 + r.code)]
  | .rlcIndHl => [0x06]
  | .rrcR r => [opByte (0x08 + r.code)]
  | .rrcIndHl => [0x0E]
  | .rlR r => [opByte (0x10 + r.code)]
  | .rlIndHl => [0x16]
  | .rrR r => [opByte (0x18 + r.code)]
  | .rrIndHl => [0x1E]
  | .slaR r => [opByte (0x20 + r.code)]
  | .slaIndHl => [0x26]
  | .sraR r => [opByte (0x28 + r.code)]
  | .sraIndHl => [0x2E]
  | .sllR r => [opByte (0x30 + r.code)]
  | .sllIndHl => [0x36]
  | .srlR r => [opByte (0x38 + r.code)]
  | .srlIndHl => [0x3E]
  | .bitBR b r => [opByte (0x40 + 8 * b.toNat + r.code)]
  | .bitBIndHl b => [opByte (0x46 + 8 * b.toNat)]
  | .resBR b r => [opByte (0x80 + 8 * b.toNat + r.code)]
  | .resBIndHl b => [opByte (0x86 + 8 * b.toNat)]
  | .setBR b r => [opByte (0xC0 + 8 * b.toNat + r.code)]
  | .setBIndHl b => [opByte (0xC6 + 8 * b.toNat)]
  | .inRC r => [opByte (0x40 + 8 * r.code)]
  | .inC => [0x70]
  | .outCR r => [opByte (0x41 + 8 * r.code)]
  | .outC0 => [0x71]
  | .sbcHlRp p => [opByte (0x42 + 16 * p.code)]
  | .adcHlRp p => [opByte (0x4A + 16 * p.code)]
  | .ldIndNnRp p nn => opWord (0x43 + 16 * p.code) nn
  | .ldRpIndNn p nn => opWord (0x4B + 16 * p.code) nn
  | .neg y => [opByte (0x44 + 8 * y.toNat)]
  | .retn y => [opByte (0x45 + 8 * y.toNat)]
  | .reti => [0x4D]
  | .im y => [opByte (0x46 + 8 * y.toNat)]
  | .ldIA => [0x47]
  | .ldRA => [0x4F]
  | .ldAI => [0x57]
  | .ldAR => [0x5F]
  | .rrd => [0x67]
  | .rld => [0x6F]
  | .nopEd q => [opByte (0x77 + 8 * q.toNat)]
  | .ldi => [0xA0]
  | .ldd => [0xA8]
  | .ldir => [0xB0]
  | .lddr => [0xB8]
  | .cpi => [0xA1]
  | .cpd => [0xA9]
  | .cpir => [0xB1]
  | .cpdr => [0xB9]
  | .ini => [0xA2]
  | .ind => [0xAA]
  | .inir => [0xB2]
  | .indr => [0xBA]
  | .outi => [0xA3]
  | .outd => [0xAB]
  | .otir => [0xB3]
  | .otdr => [0xBB]
  | .noni op => [op]
  | .addIxRp p => [opByte (0x09 + 16 * p.code)]
  | .ldIxNn nn => opWord 0x21 nn
  | .ldIndNnIx nn => opWord 0x22 nn
  | .incIx => [0x23]
  | .incIxHalf h => [opByte (0x24 + 8 * h.code)]
  | .decIxHalf h => [opByte (0x25 + 8 * h.code)]
  | .ldIxHalfN h n => [opByte (0x26 + 8 * h.code), n]
  | .ldIxIndNn nn => opWord 0x2A nn
  | .decIx => [0x2B]
  | .incIndIxD d => [0x34, d]
  | .decIndIxD d => [0x35, d]
  | .ldIndIxDN d n => [0x36, d, n]
  | .ldRIxHalf r h => [opByte (0x44 + 8 * r.code + h.code)]
  | .ldIxHalfR h r => [opByte (0x60 + 8 * h.code + r.code)]
  | .ldRIndIxD r d => [opByte (0x46 + 8 * r.code), d]
  | .ldIndIxDR d r => [opByte (0x70 + r.code), d]
  | .aluIxHalf o h => [opByte (0x84 + 8 * o.code + h.code)]
  | .aluIndIxD o d => [opByte (0x86 + 8 * o.code), d]
  | .popIx => [0xE1]
  | .exIndSpIx => [0xE3]
  | .pushIx => [0xE5]
  | .jpIndIx => [0xE9]
  | .ldSpIx => [0xF9]
  | .ddcbPrefix => [0xCB]
  | .rePrefixDd x => match x with | .ix => [0xDD] | .iy => [0xFD]
  | .edAfterDd => [0xED]
  | .ddIgnored op => [op]
  | .addIyRp p => [opByte (0x09 + 16 * p.code)]
  | .ldIyNn nn => opWord 0x21 nn
  | .ldIndNnIy nn => opWord 0x22 nn
  | .incIy => [0x23]
  | .incIyHalf h => [opByte (0x24 + 8 * h.code)]
  | .decIyHalf h => [opByte (0x25 + 8 * h.code)]
  | .ldIyHalfN h n => [opByte (0x26 + 8 * h.code), n]
  | .ldIyIndNn nn => opWord 0x2A nn
  | .decIy => [0x2B]
  | .incIndIyD d => [0x34, d]
  | .decIndIyD d => [0x35, d]
  | .ldIndIyDN d n => [0x36, d, n]
  | .ldRIyHalf r h => [opByte (0x44 + 8 * r.code + h.code)]
  | .ldIyHalfR h r => [opByte (0x60 + 8 * h.code + r.code)]
  | .ldRIndIyD r d => [opByte (0x46 + 8 * r.code), d]
  | .ldIndIyDR d r => [opByte (0x70 + r.code), d]
  | .aluIyHalf o h => [opByte (0x84 + 8 * o.code + h.code)]
  | .aluIndIyD o d => [opByte (0x86 + 8 * o.code), d]
  | .popIy => [0xE1]
  | .exIndSpIy => [0xE3]
  | .pushIy => [0xE5]
  | .jpIndIy => [0xE9]
  | .ldSpIy => [0xF9]
  | .fdcbPrefix => [0xCB]
  | .rePrefixFd x => match x with | .ix => [0xDD] | .iy => [0xFD]
  | .edAfterFd => [0xED]
  | .fdIgnored op => [op]
  | .rlcIx d => [d, 0x06]
  | .rlcIxR d r => [d, opByte (0x00 + r.code)]
  | .rrcIx d => [d, 0x0E]
  | .rrcIxR d r => [d, opByte (0x08 + r.code)]
  | .rlIx d => [d, 0x16]
  | .rlIxR d r => [d, opByte (0x10 + r.code)]
  | .rrIx d => [d, 0x1E]
  | .rrIxR d r => [d, opByte (0x18 + r.code)]
  | .slaIx d => [d, 0x26]
  | .slaIxR d r => [d, opByte (0x20 + r.code)]
  | .sraIx d => [d, 0x2E]
  | .sraIxR d r => [d, opByte (0x28 + r.code)]
  | .sllIx d => [d, 0x36]
  | .sllIxR d r => [d, opByte (0x30 + r.code)]
  | .srlIx d => [d, 0x3E]
  | .srlIxR d r => [d, opByte (0x38 + r.code)]
  | .bitIx d b z => [d, opByte (0x40 + 8 * b.toNat + z.toNat)]
  | .resIx d b => [d, opByte (0x86 + 8 * b.toNat)]
  | .resIxR d b r => [d, opByte (0x80 + 8 * b.toNat + r.code)]
  | .setIx d b => [d, opByte (0xC6 + 8 * b.toNat)]
  | .setIxR d b r => [d, opByte (0xC0 + 8 * b.toNat + r.code)]
  | .rlcIy d => [d, 0x06]
  | .rlcIyR d r => [d, opByte (0x00 + r.code)]
  | .rrcIy d => [d, 0x0E]
  | .rrcIyR d r => [d, opByte (0x08 + r.code)]
  | .rlIy d => [d, 0x16]
  | .rlIyR d r => [d, opByte (0x10 + r.code)]
  | .rrIy d => [d, 0x1E]
  | .rrIyR d r => [d, opByte (0x18 + r.code)]
  | .slaIy d => [d, 0x26]
  | .slaIyR d r => [d, opByte (0x20 + r.code)]
  | .sraIy d => [d, 0x2E]
  | .sraIyR d r => [d, opByte (0x28 + r.code)]
  | .sllIy d => [d, 0x36]
  | .sllIyR d r => [d, opByte (0x30 + r.code)]
  | .srlIy d => [d, 0x3E]
  | .srlIyR d r => [d, opByte (0x38 + r.code)]
  | .bitIy d b z => [d, opByte (0x40 + 8 * b.toNat + z.toNat)]
  | .resIy d b => [d, opByte (0x86 + 8 * b.toNat)]
  | .resIyR d b r => [d, opByte (0x80 + 8 * b.toNat + r.code)]
  | .setIy d b => [d, opByte (0xC6 + 8 * b.toNat)]
  | .setIyR d b r => [d, opByte (0xC0 + 8 * b.toNat + r.code)]

/-- How many bytes at PC a row takes: the bytes of its encoding, and none for an ignored prefix. -/
def Instr.size : Instr → Nat
  | .ddIgnored _ => 0
  | .fdIgnored _ => 0
  | i => (encode i).length

/-- The bytes of a row from the start of its instruction: the prefix bytes that lead to its page, then its own. -/
def encodeFull (i : Instr) : List Byte := i.page.leadIn ++ encode i

/-! ## A whole instruction, and a word of the opcode table -/

/-- The rows of one instruction, from its first byte on: the prefix rows in order, then the row that ends it. At
most `fuel` rows are read. -/
def decodeRows : (fuel : Nat) → Page → List Byte → Except DecodeError (List Instr)
  | 0, _, _ => .error .truncated
  | fuel + 1, pg, bs =>
    match decode pg bs with
    | .error e => .error e
    | .ok i =>
      match i.selects with
      | none => .ok [i]
      | some pg' =>
        match decodeRows fuel pg' (bs.drop i.size) with
        | .error e => .error e
        | .ok is => .ok (i :: is)

/-- The bytes of an instruction whose bits are `w`: `nbits` bits in whole bytes, first byte lowest, and zeros above
them, so that every row finds its operand bytes. -/
def tableBytes (nbits w : Nat) : List Byte :=
  (List.range ((nbits + 7) / 8 + 4)).map fun k => BitVec.ofNat 8 (w % 2 ^ nbits / 256 ^ k)

/-- The row `k` bytes of table word stand for: a prefix row if they end with it, and the row it leads to if they go
on. -/
def tableRow : (fuel : Nat) → Page → (k : Nat) → List Byte → Option Instr
  | 0, _, _, _ => none
  | fuel + 1, pg, k, bs =>
    match decode pg bs with
    | .error _ => none
    | .ok i =>
      match i.selects with
      | none => some i
      | some pg' => if 0 < i.size ∧ i.size < k then tableRow fuel pg' (k - i.size) (bs.drop i.size) else some i

/-- The row the decoder reads from an instruction whose bits are `w` and whose table row has `nbits` bits, read from
the start of an instruction (the base page; notes/assumptions/12). -/
def decodeTableWord (nbits w : Nat) : Option Instr :=
  tableRow ((nbits + 7) / 8 + 1) .base ((nbits + 7) / 8) (tableBytes nbits w)

end Sys2Proof
end

