-- ==== Sys2Proof/Machine/Fetch.lean ====
section
/-! DEFINITION. Fetching and running one instruction: its prefix rows, then the row that ends it, inside one step
(spec/30_encoding.md R153; spec/46_index_pages.md R571, R596). -/

namespace Sys2Proof.Machine

/-- The bytes the decoder looks at: what the bus will answer to the next three reads at PC, as many as the longest row
of a page has (R154, R165, R166). Only the row's own meaning makes these accesses (notes/assumptions/16). -/
def State.window (s : State) : List Byte := [s.reply 0 s.pc, s.reply 1 (s.pc + 1), s.reply 2 (s.pc + 2)]

/-- The rows an instruction in plain memory can have: 65,535 bytes DD or FD, one other byte and the row it leads to. With
all 65,536 bytes DD or FD the instruction never ends (R596, R708; notes/assumptions/10). -/
def rowLimit : Nat := 65537

/-- Row after row, with `run` as the meaning of a row: each prefix row, then the row that ends the instruction. The
page is local to the instruction (R153). -/
def executeRows (run : Instr → State → Result) : (fuel : Nat) → Page → State → Result
  | 0, _, _ => .fault .endlessPrefixes
  | fuel + 1, pg, s =>
    match decode pg s.window with
    | .error _ => .refused .undecodable
    | .ok i =>
      match i.selects with
      | none => run i s
      | some pg' =>
        match run i s with
        | .next s' => executeRows run fuel pg' s'
        | .fault e => .fault e
        | .refused r => .refused r

/-- Bytes written from an address up, wrapping at the top of memory. -/
def State.placeBytes (s : State) (a : Word) : List Byte → State
  | [] => s
  | v :: vs => { s with mem := s.mem.write a.toNat v }.placeBytes (a + 1) vs

/-- An instruction word placed where the next step fetches (`State.withFetchWord`): at least four bytes, the longest
instruction but for further prefixes, in plain memory. -/
def State.placeWord (s : State) (nbits w : Nat) : State :=
  let s := s.placeBytes s.pc ((tableBytes nbits w).take (max ((nbits + 7) / 8) 4))
  { s with agent := .plainMemory, halted := false, nmiPend := false, irqPend := s.irqPend && !s.irqRecognised }

end Sys2Proof.Machine
end

