-- ==== Sys2Proof/Machine/Step.lean ====
section
/-! DEFINITION. One `step()` (spec/60_exceptions.md rule R653), and how the host places an instruction for it. -/

namespace Sys2Proof.Machine

/-- One step: an NMI acceptance, an IRQ acceptance, a halted cycle, or one instruction with its prefixes, chosen in
this order from the state at its start (R653). EI_BLOCK is cleared before a halted cycle or an instruction (R654). -/
def step (s : State) : Host.Outcome State Fault Refusal :=
  if s.nmiPend then .next s.acceptNmi
  else if s.irqRecognised then .next s.acceptIrq
  else if s.halted then .next { s with eiBlock := false }.haltedCycle
  else executeRows exec rowLimit .base { s with eiBlock := false }

/-- The state with an instruction word stored at PC, as bytes in address order, and with what would keep the next step
from fetching it taken away: the halt, a pending NMI, an IRQ that would be recognised, a bus that is not plain memory
(notes/assumptions/9). -/
def State.withFetchWord (s : State) (nbits w : Nat) : State := s.placeWord nbits w

end Sys2Proof.Machine
end

