-- ==== Sys2Proof/Machine/HostOps.lean ====
section
/-! DEFINITION. What the host can do to the core between two steps (spec/70_reset_and_hazards.md rule R703): the request
calls, `restart()`, the accessors of R79, and the caller's own tick counter. No operation performs a bus transaction or
adds a tick (notes/assumptions/14). -/

namespace Sys2Proof.Machine

/-! ## Requests, restart and debug reads -/

/-- `interrupt()` (R652). -/
def State.interrupt (s : State) : State := { s with irqPend := true }

/-- `nmi()` (R652). -/
def State.nmi (s : State) : State := { s with nmiPend := true }

/-- `restart()`: every element of the core takes its value of R80 and R700, the `RESET_UNSPEC` registers a fresh draw.
T, memory and the bus agent are kept. -/
def State.restart (s : State) : State :=
  { State.reset with
    bc := Config.resetUnspec s.draws .bc
    de := Config.resetUnspec s.draws .de
    hl := Config.resetUnspec s.draws .hl
    afAlt := Config.resetUnspec s.draws .afAlt
    bcAlt := Config.resetUnspec s.draws .bcAlt
    deAlt := Config.resetUnspec s.draws .deAlt
    hlAlt := Config.resetUnspec s.draws .hlAlt
    ix := Config.resetUnspec s.draws .ix
    iy := Config.resetUnspec s.draws .iy
    wz := Config.resetUnspec s.draws .wz
    t := s.t
    mem := s.mem
    agent := s.agent
    bus := s.bus
    draws := s.draws + 1 }

/-- The state of the interrupt controller as the source names it (R75; spec/90_conflicts.md C3). -/
inductive RequestState where
  | idle | nmiRequested | irqRequested
  deriving DecidableEq, Repr

/-- It is the projection of the two latches (R75). -/
def State.requestState (s : State) : RequestState :=
  if s.nmiPend then .nmiRequested else if s.irqPend then .irqRequested else .idle

/-- `isHalted()` (R670). -/
def State.isHalted (s : State) : Bool := s.halted

/-- `peek(addr)`: the byte the bus answers, with no tick (R113). That the answer is used is the operation `HostOp.peek`. -/
def State.peek (s : State) (a : Word) : Byte := s.byteAt a

/-! ## Accessors (R79) -/

/-- A 16-bit item an accessor reaches. -/
inductive WordItem where
  | af | bc | de | hl | afAlt | bcAlt | deAlt | hlAlt | ix | iy | sp | pc | ir | wz
  deriving DecidableEq, Repr

/-- A half of a pair: the high or the low 8 bits (R51). DESIGN CHOICE: SP and PC are taken with the others, though R51 gives
them no architected halves; a write of such a half is the word written with its other half (notes/assumptions/17). -/
structure ByteItem where
  pair : WordItem
  half : Half
  deriving DecidableEq, Repr

/-- A flag of F, by its name (R58, R60). -/
inductive FlagItem where
  | c | n | pv | x3 | h | x5 | z | s
  deriving DecidableEq, Repr

/-- A control bit an accessor reaches. -/
inductive BitItem where
  | iff1 | iff2 | halted | eiBlock
  deriving DecidableEq, Repr

/-- A request latch. -/
inductive Latch where
  | nmi | irq
  deriving DecidableEq, Repr

/-- Reading a 16-bit item. -/
def State.getWord (s : State) : WordItem → Word
  | .af => s.af
  | .bc => s.bc
  | .de => s.de
  | .hl => s.hl
  | .afAlt => s.afAlt
  | .bcAlt => s.bcAlt
  | .deAlt => s.deAlt
  | .hlAlt => s.hlAlt
  | .ix => s.ix
  | .iy => s.iy
  | .sp => s.sp
  | .pc => s.pc
  | .ir => s.ir
  | .wz => s.wz

/-- Writing a 16-bit item, exactly. -/
def State.putWord (s : State) (k : WordItem) (w : Word) : State :=
  match k with
  | .af => { s with af := w }
  | .bc => { s with bc := w }
  | .de => { s with de := w }
  | .hl => { s with hl := w }
  | .afAlt => { s with afAlt := w }
  | .bcAlt => { s with bcAlt := w }
  | .deAlt => { s with deAlt := w }
  | .hlAlt => { s with hlAlt := w }
  | .ix => { s with ix := w }
  | .iy => { s with iy := w }
  | .sp => { s with sp := w }
  | .pc => { s with pc := w }
  | .ir => { s with ir := w }
  | .wz => { s with wz := w }

/-- Reading an 8-bit item. -/
def State.getByte (s : State) (k : ByteItem) : Byte :=
  match k.half with
  | .high => hi8 (s.getWord k.pair)
  | .low => lo8 (s.getWord k.pair)

/-- Writing an 8-bit item, exactly: the other half is kept (R51). -/
def State.putByte (s : State) (k : ByteItem) (v : Byte) : State :=
  match k.half with
  | .high => s.putWord k.pair (withHi (s.getWord k.pair) v)
  | .low => s.putWord k.pair (withLo (s.getWord k.pair) v)

/-- The place of a flag in F (R58). -/
def FlagItem.index : FlagItem → Nat
  | .c => 0
  | .n => 1
  | .pv => 2
  | .x3 => 3
  | .h => 4
  | .x5 => 5
  | .z => 6
  | .s => 7

/-- Reading a flag. -/
def State.getFlag (s : State) (k : FlagItem) : Bool := bit s.f k.index

/-- Writing a flag: the other seven are kept. -/
def State.putFlag (s : State) (k : FlagItem) (v : Bool) : State :=
  let m : Byte := (1 : Byte) <<< k.index
  s.setF (if v then s.f ||| m else s.f &&& ~~~m)

/-- Reading a control bit. -/
def State.getBit (s : State) : BitItem → Bool
  | .iff1 => s.iff1
  | .iff2 => s.iff2
  | .halted => s.halted
  | .eiBlock => s.eiBlock

/-- Writing a control bit. -/
def State.putBit (s : State) (k : BitItem) (v : Bool) : State :=
  match k with
  | .iff1 => { s with iff1 := v }
  | .iff2 => { s with iff2 := v }
  | .halted => { s with halted := v }
  | .eiBlock => { s with eiBlock := v }

/-- Reading IM. -/
def State.getIm (s : State) : Nat :=
  match s.im with
  | .im0 => 0
  | .im1 => 1
  | .im2 => 2

/-- Writing IM: a value outside {0, 1, 2} is refused (R79; spec/93_implementation_defined.md I12). -/
def State.putIm (s : State) (n : Nat) : Result :=
  match n with
  | 0 => .next { s with im := .im0 }
  | 1 => .next { s with im := .im1 }
  | 2 => .next { s with im := .im2 }
  | _ => .refused .interruptModeOutOfRange

/-! ## The operations as one table (R703) -/

/-- A host operation that may change the state. -/
inductive HostOp where
  | step
  | interrupt
  | nmi
  | restart
  | putWord (k : WordItem) (w : Word)
  | putByte (k : ByteItem) (v : Byte)
  | putFlag (k : FlagItem) (v : Bool)
  | putBit (k : BitItem) (v : Bool)
  | putIm (n : Nat)
  /-- A write of a request latch, which no accessor reaches. -/
  | putLatch (l : Latch) (v : Bool)
  /-- The caller gives its tick counter a value (R21, R665). -/
  | putTicks (n : Nat)
  /-- A debug read, `State.peek`: no element of the core changes and no tick passes; the bus has given one more answer
  (R103, R113). -/
  | peek (a : Word)
  deriving DecidableEq, Repr

/-- What a host operation answers (R703). -/
def hostOp (o : HostOp) (s : State) : Result :=
  match o with
  | .step => Sys2Proof.Machine.step s
  | .interrupt => .next s.interrupt
  | .nmi => .next s.nmi
  | .restart => .next s.restart
  | .putWord k w => .next (s.putWord k w)
  | .putByte k v => .next (s.putByte k v)
  | .putFlag k v => .next (s.putFlag k v)
  | .putBit k v => .next (s.putBit k v)
  | .putIm n => s.putIm n
  | .putLatch _ _ => .refused .latchHasNoAccessor
  | .putTicks n => .next { s with t := n }
  | .peek _ => .next { s with draws := s.draws + 1 }

end Sys2Proof.Machine
end

