-- ==== Sys2Proof/Safety.lean ====
section
/-! DEFINITION. The terms the claims use: what a safe run is, the Cycles line of an instruction (spec/20_memory.md R126),
and, from the rules of each row of spec/opcode_table.json, what the row may change: registers, flags, memory, control bits,
M1 count and ticks. Nothing here is used by the machine itself. -/

namespace Sys2Proof.Machine

/-! ## Safe runs -/

/-- A DD or FD byte, an index prefix byte (R152). -/
def isIndexByte (v : Byte) : Bool := v == 0xDD || v == 0xFD

/-- Every byte of plain memory is DD or FD, so an instruction fetched from it never ends (R708). -/
def State.AllIndexBytes (s : State) : Prop := ∀ a : Word, isIndexByte (s.mem.read a.toNat) = true

/-- The bus answers the next `n` reads at PC, PC + 1 and on with DD or FD bytes. -/
def State.PrefixesFor (s : State) (n : Nat) : Prop := ∀ k < n, isIndexByte (s.reply k (s.pc + BitVec.ofNat 16 k)) = true

/-- The step executes an instruction: no acceptance and no halted cycle comes before it (R653). -/
def State.Executes (s : State) : Prop := s.nmiPend = false ∧ s.irqRecognised = false ∧ s.halted = false

/-- On plain memory: the step is the one that never ends (R596, R708). -/
def State.Hangs (s : State) : Prop := s.Executes ∧ s.AllIndexBytes

/-- The invariant of the model's own data: memory is in its canonical form. -/
def State.Inv (s : State) : Prop := s.mem.wf = true

/-- The bus answers reads at an address and after it, wrapping at the top, with the bytes of a list; the first of them is
answer `k` from here. In plain memory: the bytes stand there. -/
def State.Answers (s : State) (k : Nat) (a : Word) : List Byte → Prop
  | [] => True
  | v :: vs => s.reply k a = v ∧ s.Answers (k + 1) (a + 1) vs

/-- The bus answers the next reads at an address and after it with the bytes of a list. -/
def State.BytesAt (s : State) (a : Word) (vs : List Byte) : Prop := s.Answers 0 a vs

/-! ## Cycles lines (R126) -/

/-- One entry of a Cycles line: kind, address and base ticks, and the byte it moves. -/
structure Cycle where
  kind  : BusKind
  addr  : Word
  ticks : Nat
  data  : Option Byte
  deriving DecidableEq, Repr

/-- T and the bus trace after the cycles, in order: each adds its base ticks and its contention at the T it starts at
(R104, R715). -/
def clockAfter : List Cycle → Nat × List BusEvent → Nat × List BusEvent
  | [], p => p
  | c :: cs, p =>
    clockAfter cs (p.1 + (c.ticks + Config.contend c.kind c.addr p.1), ⟨c.kind, c.addr, c.data, c.ticks, p.1⟩ :: p.2)

/-- The answers that cycles take from the bus: one for each fetch, memory read and port read (R103). -/
def answers (cs : List Cycle) : Nat := (cs.map fun c => answersOf c.kind).sum

/-- The state after the cycles of a list and nothing else: T, the bus trace and the number of answers alone change. -/
def State.through (s : State) (cs : List Cycle) : State :=
  { s with
    t := (clockAfter cs (s.t, s.bus)).1
    bus := (clockAfter cs (s.t, s.bus)).2
    draws := s.draws + answers cs }

/-- `fetch(a):4` of the next answer in a state. -/
def State.cFetch (s : State) (a : Word) : Cycle := ⟨.fetch, a, 4, some (s.reply 0 a)⟩

/-- `read(a):3` of answer `k` from a state on. -/
def State.cRead (s : State) (k : Nat) (a : Word) : Cycle := ⟨.read, a, 3, some (s.reply k a)⟩

/-- `write(a):3` of v. -/
def cWrite (a : Word) (v : Byte) : Cycle := ⟨.write, a, 3, some v⟩

/-- The byte a port read answers as answer `k` from a state on: a draw (R103). -/
def State.portReply (s : State) (k : Nat) (p : Word) : Byte := Config.portAnswer (s.draws + k) p

/-- `io_read(p):4` of answer `k` from a state on. -/
def State.cIn (s : State) (k : Nat) (p : Word) : Cycle := ⟨.ioRead, p, 4, some (s.portReply k p)⟩

/-- `io_write(p):4` of v. -/
def cOut (p : Word) (v : Byte) : Cycle := ⟨.ioWrite, p, 4, some v⟩

/-- `internal(a):1 xn`. -/
def cIdle (a : Word) (n : Nat) : List Cycle := List.replicate n ⟨.internal, a, 1, none⟩

/-- `ack(ir):n`. -/
def State.cAck (s : State) (n : Nat) : Cycle := ⟨.ack, s.ir, n, none⟩

/-- IR after one M1 cycle: bits 6..0 count, the rest is kept (R105). -/
def countedIr (ir : Word) : Word := withLo ir (nextR (lo8 ir))

/-- A row that is one M1 fetch at PC and n bytes long, with these cycles: PC, R, T, the bus trace and the answers. -/
def State.ran (s : State) (n : Word) (cs : List Cycle) : State :=
  { s.through cs with pc := s.pc + n, ir := countedIr s.ir }

/-- The base ticks of a bus trace. -/
def baseTicks (es : List BusEvent) : Nat := (es.map BusEvent.ticks).sum

/-- The events of a bus trace, newest first, fill the time from t0 to t1: each starts when the one before it ends, and
lasts its base ticks and its contention (R104, R715). -/
def Fills (t0 : Nat) : List BusEvent → Nat → Prop
  | [], t1 => t1 = t0
  | e :: es, t1 => Fills t0 es e.start ∧ t1 = e.start + (e.ticks + Config.contend e.kind e.addr e.start)

end Sys2Proof.Machine

namespace Sys2Proof

open Machine

/-! ## What a row may change -/

/-- The half of a register pair behind `r[k]`. -/
def Reg8.item : Reg8 → ByteItem
  | .b => ⟨.bc, .high⟩
  | .c => ⟨.bc, .low⟩
  | .d => ⟨.de, .high⟩
  | .e => ⟨.de, .low⟩
  | .h => ⟨.hl, .high⟩
  | .l => ⟨.hl, .low⟩
  | .a => ⟨.af, .high⟩

/-- Both halves of a pair. -/
def both (k : WordItem) : List ByteItem := [⟨k, .high⟩, ⟨k, .low⟩]

/-- The pair behind `rp[k]`. -/
def Rp.word : Rp → WordItem
  | .bc => .bc | .de => .de | .hl => .hl | .sp => .sp

/-- The pair behind `rp2[k]`. -/
def Rp2.word : Rp2 → WordItem
  | .bc => .bc | .de => .de | .hl => .hl | .af => .af

/-- IX or IY as an item. -/
def Index.word : Index → WordItem
  | .ix => .ix | .iy => .iy

/-- A. -/
def itemA : ByteItem := ⟨.af, .high⟩

/-- F. -/
def itemF : ByteItem := ⟨.af, .low⟩

/-- A and F for every operation, F alone for CP (R271). -/
def AluOp.dest : AluOp → List ByteItem
  | .cp => [itemF]
  | _ => [itemA, itemF]

/-- The register halves a row may write, PC and the refresh count left aside: its destinations, and what its rule says it
updates too (files 40 to 47; WZ by R77). The refresh count is `Instr.m1`. -/
def Instr.dest : Instr → List ByteItem
  -- base page
  | .exAfAf => both .af ++ both .afAlt
  | .djnz _ => ⟨.bc, .high⟩ :: both .wz
  | .jr _ | .jrCc _ _ => both .wz
  | .ldRpNn p _ => both p.word
  | .addHlRp _ => itemF :: both .hl ++ both .wz
  | .ldIndRpA _ | .ldIndNnHl _ | .ldIndNnA _ => both .wz
  | .ldAIndRp _ | .ldAIndNn _ => itemA :: both .wz
  | .ldHlIndNn _ => both .hl ++ both .wz
  | .incRp p | .decRp p => both p.word
  | .incR r | .decR r => [itemF, r.item]
  | .incIndHl | .decIndHl => [itemF]
  | .ldRN r _ | .ldRR r _ | .ldRIndHl r => [r.item]
  | .rlca | .rrca | .rla | .rra | .daa | .cpl => [itemA, itemF]
  | .scf | .ccf => [itemF]
  | .addAR _ | .addAIndHl | .addAN _ | .adcAR _ | .adcAIndHl | .adcAN _ | .subR _ | .subIndHl | .subN _
  | .sbcAR _ | .sbcAIndHl | .sbcAN _ | .andR _ | .andIndHl | .andN _ | .xorR _ | .xorIndHl | .xorN _
  | .orR _ | .orIndHl | .orN _ => [itemA, itemF]
  | .cpR _ | .cpIndHl | .cpN _ => [itemF]
  | .retCc _ | .ret => both .sp ++ both .wz
  | .popRp2 p => both p.word ++ both .sp
  | .exx => both .bc ++ both .de ++ both .hl ++ both .bcAlt ++ both .deAlt ++ both .hlAlt
  | .ldSpHl => both .sp
  | .jpCcNn _ _ | .jpNn _ => both .wz
  | .outNA _ => both .wz
  | .inAN _ => itemA :: both .wz
  | .exIndSpHl => both .hl ++ both .wz
  | .exDeHl => both .de ++ both .hl
  | .callCcNn _ _ | .callNn _ | .rst _ => both .sp ++ both .wz
  | .pushRp2 _ => both .sp
  -- CB page
  | .rlcR r | .rrcR r | .rlR r | .rrR r | .slaR r | .sraR r | .sllR r | .srlR r => [itemF, r.item]
  | .rlcIndHl | .rrcIndHl | .rlIndHl | .rrIndHl | .slaIndHl | .sraIndHl | .sllIndHl | .srlIndHl => [itemF]
  | .bitBR _ _ | .bitBIndHl _ => [itemF]
  | .resBR _ r | .setBR _ r => [r.item]
  -- ED page
  | .inRC r => itemF :: r.item :: both .wz
  | .inC => itemF :: both .wz
  | .outCR _ | .outC0 => both .wz
  | .sbcHlRp _ | .adcHlRp _ => itemF :: both .hl ++ both .wz
  | .ldIndNnRp _ _ => both .wz
  | .ldRpIndNn p _ => both p.word ++ both .wz
  | .neg _ => [itemA, itemF]
  | .retn _ | .reti => both .sp ++ both .wz
  | .ldIA => [⟨.ir, .high⟩]
  | .ldRA => [⟨.ir, .low⟩]
  | .ldAI | .ldAR => [itemA, itemF]
  | .rrd | .rld => itemA :: itemF :: both .wz
  | .ldi | .ldd => itemF :: both .bc ++ both .de ++ both .hl
  | .ldir | .lddr => itemF :: both .bc ++ both .de ++ both .hl ++ both .wz
  | .cpi | .cpd | .cpir | .cpdr => itemF :: both .bc ++ both .hl ++ both .wz
  | .ini | .ind | .inir | .indr | .outi | .outd | .otir | .otdr =>
    itemF :: ⟨.bc, .high⟩ :: both .hl ++ both .wz
  -- DD page
  | .addIxRp _ => itemF :: both .ix ++ both .wz
  | .ldIxNn _ | .incIx | .decIx => both .ix
  | .ldIndNnIx _ => both .wz
  | .incIxHalf h | .decIxHalf h => [itemF, ⟨.ix, h⟩]
  | .ldIxHalfN h _ | .ldIxHalfR h _ => [⟨.ix, h⟩]
  | .ldIxIndNn _ => both .ix ++ both .wz
  | .incIndIxD _ | .decIndIxD _ => itemF :: both .wz
  | .ldIndIxDN _ _ | .ldIndIxDR _ _ => both .wz
  | .ldRIxHalf r _ => [(regNoHL r).item]
  | .ldRIndIxD r _ => r.item :: both .wz
  | .aluIxHalf o _ => o.dest
  | .aluIndIxD o _ => o.dest ++ both .wz
  | .popIx => both .ix ++ both .sp
  | .exIndSpIx => both .ix ++ both .wz
  | .pushIx | .ldSpIx => both .sp
  -- FD page
  | .addIyRp _ => itemF :: both .iy ++ both .wz
  | .ldIyNn _ | .incIy | .decIy => both .iy
  | .ldIndNnIy _ => both .wz
  | .incIyHalf h | .decIyHalf h => [itemF, ⟨.iy, h⟩]
  | .ldIyHalfN h _ | .ldIyHalfR h _ => [⟨.iy, h⟩]
  | .ldIyIndNn _ => both .iy ++ both .wz
  | .incIndIyD _ | .decIndIyD _ => itemF :: both .wz
  | .ldIndIyDN _ _ | .ldIndIyDR _ _ => both .wz
  | .ldRIyHalf r _ => [(regNoHL r).item]
  | .ldRIndIyD r _ => r.item :: both .wz
  | .aluIyHalf o _ => o.dest
  | .aluIndIyD o _ => o.dest ++ both .wz
  | .popIy => both .iy ++ both .sp
  | .exIndSpIy => both .iy ++ both .wz
  | .pushIy | .ldSpIy => both .sp
  -- DDCB and FDCB pages
  | .rlcIx _ | .rrcIx _ | .rlIx _ | .rrIx _ | .slaIx _ | .sraIx _ | .sllIx _ | .srlIx _ | .bitIx _ _ _
  | .rlcIy _ | .rrcIy _ | .rlIy _ | .rrIy _ | .slaIy _ | .sraIy _ | .sllIy _ | .srlIy _ | .bitIy _ _ _ =>
    itemF :: both .wz
  | .rlcIxR _ r | .rrcIxR _ r | .rlIxR _ r | .rrIxR _ r | .slaIxR _ r | .sraIxR _ r | .sllIxR _ r | .srlIxR _ r
  | .rlcIyR _ r | .rrcIyR _ r | .rlIyR _ r | .rrIyR _ r | .slaIyR _ r | .sraIyR _ r | .sllIyR _ r | .srlIyR _ r =>
    itemF :: r.item :: both .wz
  | .resIx _ _ | .setIx _ _ | .resIy _ _ | .setIy _ _ => both .wz
  | .resIxR _ _ r | .setIxR _ _ r | .resIyR _ _ r | .setIyR _ _ r => r.item :: both .wz
  | _ => []

/-- All eight flags. -/
def allFlags : Byte := 0xFF

/-- Every flag but C. -/
def allButC : Byte := 0xFE

/-- 5, H, 3, N and C: what leaves S, Z and PV alone. -/
def not3Flags : Byte := 0x3B

/-- The flag bits a row may write, by the Flags line of its rule. -/
def Instr.flags : Instr → Byte
  | .exAfAf => allFlags
  | .popRp2 .af => allFlags
  | .addHlRp _ | .addIxRp _ | .addIyRp _ => not3Flags
  | .incR _ | .incIndHl | .decR _ | .decIndHl => allButC
  | .incIxHalf _ | .decIxHalf _ | .incIndIxD _ | .decIndIxD _ => allButC
  | .incIyHalf _ | .decIyHalf _ | .incIndIyD _ | .decIndIyD _ => allButC
  | .rlca | .rrca | .rla | .rra | .scf | .ccf => not3Flags
  | .daa => 0xFD
  | .cpl => 0x3A
  | .bitBR _ _ | .bitBIndHl _ | .bitIx _ _ _ | .bitIy _ _ _ => allButC
  | .inRC _ | .inC | .ldAI | .ldAR | .rrd | .rld => allButC
  | .ldi | .ldd | .ldir | .lddr => 0x3E
  | .cpi | .cpd | .cpir | .cpdr => allButC
  | i => if itemF ∈ i.dest then allFlags else 0

/-- The addresses of the bytes a row stores, in the state it starts in, in the order of its Cycles line. -/
def Instr.stores (i : Instr) (s : State) : List Word :=
  match i with
  | .ldIndRpA p => [s.bcDe p]
  | .ldIndNnHl nn | .ldIndNnRp _ nn | .ldIndNnIx nn | .ldIndNnIy nn => [nn, nn + 1]
  | .ldIndNnA nn => [nn]
  | .incIndHl | .decIndHl | .ldIndHlN _ | .ldIndHlR _ => [s.hl]
  | .rlcIndHl | .rrcIndHl | .rlIndHl | .rrIndHl | .slaIndHl | .sraIndHl | .sllIndHl | .srlIndHl => [s.hl]
  | .resBIndHl _ | .setBIndHl _ | .rrd | .rld => [s.hl]
  | .exIndSpHl | .exIndSpIx | .exIndSpIy => [s.sp + 1, s.sp]
  | .pushRp2 _ | .pushIx | .pushIy | .callNn _ | .rst _ => [s.sp - 1, s.sp - 2]
  | .callCcNn cc _ => if cc.holds s.f then [s.sp - 1, s.sp - 2] else []
  | .ldi | .ldd | .ldir | .lddr => [s.de]
  | .ini | .ind | .inir | .indr => [s.hl]
  | .incIndIxD d | .decIndIxD d | .ldIndIxDN d _ | .ldIndIxDR d _ => [s.ix + sext16 d]
  | .incIndIyD d | .decIndIyD d | .ldIndIyDN d _ | .ldIndIyDR d _ => [s.iy + sext16 d]
  | .rlcIx d | .rrcIx d | .rlIx d | .rrIx d | .slaIx d | .sraIx d | .sllIx d | .srlIx d => [s.ix + sext16 d]
  | .rlcIxR d _ | .rrcIxR d _ | .rlIxR d _ | .rrIxR d _ | .slaIxR d _ | .sraIxR d _ | .sllIxR d _ | .srlIxR d _ =>
    [s.ix + sext16 d]
  | .resIx d _ | .resIxR d _ _ | .setIx d _ | .setIxR d _ _ => [s.ix + sext16 d]
  | .rlcIy d | .rrcIy d | .rlIy d | .rrIy d | .slaIy d | .sraIy d | .sllIy d | .srlIy d => [s.iy + sext16 d]
  | .rlcIyR d _ | .rrcIyR d _ | .rlIyR d _ | .rrIyR d _ | .slaIyR d _ | .sraIyR d _ | .sllIyR d _ | .srlIyR d _ =>
    [s.iy + sext16 d]
  | .resIy d _ | .resIyR d _ _ | .setIy d _ | .setIyR d _ _ => [s.iy + sext16 d]
  | _ => []

/-- The rows an ignored index byte has: they take no byte and no cycle of their own. -/
def Instr.isIgnored : Instr → Bool
  | .ddIgnored _ | .fdIgnored _ => true
  | _ => false

/-- The M1 fetches of a row itself, without those of the rows before it (R174). -/
def Instr.m1 (i : Instr) : Nat :=
  if i.isIgnored || i.page == .ddcb || i.page == .fdcb then 0 else 1

/-- The field `tstates` of a row: the uncontended ticks of a whole instruction, prefix bytes included, in the state the row
starts in; the byte CPIR compares is its second answer, after its fetch. INC (HL) and DEC (HL) have their
row's 11 (notes/assumptions/18). "4+" of a prefix row is its own 4; "base+4" of an ignored index byte leaves it nothing of
its own (R173). -/
def Instr.tstates (i : Instr) (s : State) : Nat :=
  match i with
  | .incRp _ | .decRp _ | .ldSpHl => 6
  | .ldIndRpA _ | .ldAIndRp _ | .ldRN _ _ | .ldRIndHl _ | .ldIndHlR _ | .addAIndHl | .addAN _ | .adcAIndHl
  | .adcAN _ | .subIndHl | .subN _ | .sbcAIndHl | .sbcAN _ | .andIndHl | .andN _ | .xorIndHl | .xorN _
  | .orIndHl | .orN _ | .cpIndHl | .cpN _ => 7
  | .rlcR _ | .rrcR _ | .rlR _ | .rrR _ | .slaR _ | .sraR _ | .sllR _ | .srlR _ | .bitBR _ _ | .resBR _ _
  | .setBR _ _ | .neg _ | .im _ | .nopEd _ | .noni _ | .incIxHalf _ | .decIxHalf _ | .ldRIxHalf _ _
  | .ldIxHalfR _ _ | .aluIxHalf _ _ | .jpIndIx | .incIyHalf _ | .decIyHalf _ | .ldRIyHalf _ _
  | .ldIyHalfR _ _ | .aluIyHalf _ _ | .jpIndIy => 8
  | .ldIA | .ldRA | .ldAI | .ldAR => 9
  | .ldRpNn _ _ | .ldIndHlN _ | .popRp2 _ | .ret | .jpCcNn _ _ | .jpNn _ | .incIx | .decIx | .ldSpIx
  | .incIy | .decIy | .ldSpIy => 10
  | .addHlRp _ | .incIndHl | .decIndHl | .outNA _ | .inAN _ | .pushRp2 _ | .rst _ | .ldIxHalfN _ _
  | .ldIyHalfN _ _ => 11
  | .jr _ | .bitBIndHl _ | .inRC _ | .inC | .outCR _ | .outC0 => 12
  | .ldIndNnA _ | .ldAIndNn _ => 13
  | .retn _ | .reti | .ldIxNn _ | .popIx | .ldIyNn _ | .popIy => 14
  | .rlcIndHl | .rrcIndHl | .rlIndHl | .rrIndHl | .slaIndHl | .sraIndHl | .sllIndHl | .srlIndHl
  | .resBIndHl _ | .setBIndHl _ | .sbcHlRp _ | .adcHlRp _ | .addIxRp _ | .pushIx | .addIyRp _ | .pushIy => 15
  | .ldIndNnHl _ | .ldHlIndNn _ | .ldi | .ldd | .cpi | .cpd | .ini | .ind | .outi | .outd => 16
  | .callNn _ => 17
  | .rrd | .rld => 18
  | .exIndSpHl | .ldIndIxDN _ _ | .ldRIndIxD _ _ | .ldIndIxDR _ _ | .aluIndIxD _ _ | .ldIndIyDN _ _
  | .ldRIndIyD _ _ | .ldIndIyDR _ _ | .aluIndIyD _ _ => 19
  | .ldIndNnRp _ _ | .ldRpIndNn _ _ | .ldIndNnIx _ | .ldIxIndNn _ | .ldIndNnIy _ | .ldIyIndNn _
  | .bitIx _ _ _ | .bitIy _ _ _ => 20
  | .incIndIxD _ | .decIndIxD _ | .exIndSpIx | .incIndIyD _ | .decIndIyD _ | .exIndSpIy | .rlcIx _
  | .rlcIxR _ _ | .rrcIx _ | .rrcIxR _ _ | .rlIx _ | .rlIxR _ _ | .rrIx _ | .rrIxR _ _ | .slaIx _
  | .slaIxR _ _ | .sraIx _ | .sraIxR _ _ | .sllIx _ | .sllIxR _ _ | .srlIx _ | .srlIxR _ _ | .resIx _ _
  | .resIxR _ _ _ | .setIx _ _ | .setIxR _ _ _ | .rlcIy _ | .rlcIyR _ _ | .rrcIy _ | .rrcIyR _ _ | .rlIy _
  | .rlIyR _ _ | .rrIy _ | .rrIyR _ _ | .slaIy _ | .slaIyR _ _ | .sraIy _ | .sraIyR _ _ | .sllIy _
  | .sllIyR _ _ | .srlIy _ | .srlIyR _ _ | .resIy _ _ | .resIyR _ _ _ | .setIy _ _ | .setIyR _ _ _ => 23
  | .djnz _ => if s.b = 1 then 8 else 13
  | .jrCc cc _ => if cc.cond.holds s.f then 12 else 7
  | .retCc cc => if cc.holds s.f then 11 else 5
  | .callCcNn cc _ => if cc.holds s.f then 17 else 10
  | .ldir | .lddr => if s.bc = 1 then 16 else 21
  | .cpir | .cpdr => if s.bc = 1 ∨ s.a = s.reply 1 s.hl then 16 else 21
  | .inir | .indr | .otir | .otdr => if s.b = 1 then 16 else 21
  | .ddIgnored _ | .fdIgnored _ => 0
  | _ => 4

/-- The uncontended ticks of a row itself: those of the instruction without the 4 of each byte that leads to its page. -/
def Instr.ownTicks (i : Instr) (s : State) : Nat :=
  if i.selects.isSome then i.tstates s else i.tstates s - 4 * i.page.leadIn.length

/-! ## The rows that lead to a row (R152, R153) -/

/-- The prefix rows that lead to a page from the start of an instruction. -/
def Page.leadRows : Page → List Instr
  | .base => []
  | .cb => [.cbPrefix]
  | .ed => [.edPrefix]
  | .dd => [.ddPrefix]
  | .fd => [.fdPrefix]
  | .ddcb => [.ddPrefix, .ddcbPrefix]
  | .fdcb => [.fdPrefix, .fdcbPrefix]

/-- The index register a byte selects, for DD and FD. -/
def indexOf (v : Byte) : Index := if v = 0xFD then .iy else .ix

/-- The row of the index register chosen: `i` for IX, `j` for IY. -/
def Index.pick (x : Index) (i j : Instr) : Instr :=
  match x with
  | .ix => i
  | .iy => j

/-- The bytes between an index byte and a row that may end its instruction: none before a row of its own page or before a
base row that it leaves alone, ED before an ED row, CB before a row of the DDCB or FDCB page (R153, R571, R596). -/
def leadAfterIndex (x : Index) (i : Instr) : Option (List Byte) :=
  match i.page with
  | .base => if (encode i).head?.any (fun b => !hasIndexRow b) then some [] else none
  | .cb => none
  | .ed => some [0xED]
  | .dd => if x = .ix then some [] else none
  | .fd => if x = .iy then some [] else none
  | .ddcb => if x = .ix then some [0xCB] else none
  | .fdcb => if x = .iy then some [0xCB] else none

end Sys2Proof
end

