-- ==== Sys2Proof/Certificates/Slice0/Obligations.lean ====
section
/-! DEFINITION. The statements for the provers. A result is stated as the next state itself, so that everything the equation does
not name is unchanged; its T and bus trace are the Cycles line of the rule (`State.through`, `State.ran`, Safety.lean).
`s.ran n cs` is s after the cycles cs of a row of n bytes with one M1 fetch: PC + n, R + 1. On the pages with prefix bytes a row
stands at the byte after them (R173), as `StepRunsInstruction` says. `s.reply k a` is the bus's answer to
a memory read at a as its k-th answer from s on, counted from 0: in plain memory the byte at a, on any other bus a draw (R103). The
bus trace, the numbering of the answers and the two bus instances are the model's (notes/assumptions/3, 5, 6). -/

open Sys2Proof Sys2Proof.Machine

/-! ## Encoding -/

/-- Every well-formed row decodes back from its encoding, whatever bytes follow it (R154, R163 to R167, R170). -/
def Obligations.DecodeOfEncodeIsTheRow : Prop :=
  ∀ (i : Instr) (rest : List Byte), i.wellFormed = true → decode i.page (encode i ++ rest) = .ok i

/-- From the first byte of an instruction, the decoder reads the prefix rows of its page and then its row (R153). -/
def Obligations.DecodeOfWholeEncoding : Prop :=
  ∀ (i : Instr) (rest : List Byte), i.wellFormed = true → i.selects = none →
    decodeRows 3 .base (encodeFull i ++ rest) = .ok (i.page.leadRows ++ [i])

/-- A decoded row is well formed and on its page, and the bytes it was read from begin with its encoding: no byte string has a
second reading, and no operand bit is dropped (R173, R175). -/
def Obligations.DecodedRowHasTheseBytes : Prop :=
  ∀ (pg : Page) (bs : List Byte) (i : Instr), decode pg bs = .ok i →
    i.wellFormed = true ∧ i.page = pg ∧ encode i <+: bs

/-- Every byte of every page is an instruction; three bytes are enough to read it (R168). -/
def Obligations.EveryByteIsAnInstruction : Prop :=
  ∀ (pg : Page) (b c d : Byte), ∃ i, decode pg [b, c, d] = .ok i

/-- A few words written out from the spec's encodings (R163 to R167). -/
def Obligations.SampleWordsDecode : Prop :=
  decode .base [0x3E#8, 0x12#8] = .ok (.ldRN .a 0x12#8)
    ∧ decode .base [0b11000011#8, 0x34#8, 0x12#8] = .ok (.jpNn 0x1234#16)
    ∧ decode .cb [0b01110110#8] = .ok (.bitBIndHl 6#3)
    ∧ decode .ed [0b10110000#8] = .ok .ldir
    ∧ decode .dd [0x36#8, 0xFE#8, 0x5A#8] = .ok (.ldIndIxDN 0xFE#8 0x5A#8)
    ∧ decode .fd [0b01100101#8] = .ok (.ldIyHalfR .high .idxL)
    ∧ decode .ddcb [0x03#8, 0b11001111#8] = .ok (.setIxR 0x03#8 1#3 .a)
    ∧ decode .fdcb [0x80#8, 0b00110110#8] = .ok (.sllIy 0x80#8)

/-! ## Memory -/

/-- Plain memory: a read answers the last byte written to its address, and a write leaves every other address alone. On any other
bus each memory read answers a draw; a port read answers a draw on every bus (R103). How draws are numbered is the model's
(notes/assumptions/3, 5). -/
def Obligations.MemoryReadAfterWrite : Prop :=
  (∀ (m : Memory) (a b : Nat) (v : Byte), (m.write a v).read b = if b = a then v else m.read b)
    ∧ (∀ (s : State) (k : Nat) (a b : Word) (v : Byte), s.agent = .plainMemory →
      s.reply k b = s.mem.read b.toNat ∧ (s.writeAt a v).reply k b = if b = a then v else s.reply k b)
    ∧ (∀ (s : State) (k : Nat) (a : Word), s.agent = .anyBus → s.reply k a = Config.memoryAnswer (s.draws + k) a)
    ∧ ∀ (s : State) (k : Nat) (p : Word), s.portReply k p = Config.portAnswer (s.draws + k) p

/-- A word written: its low byte is stored at the address and its high byte at the address plus 1, modulo 65,536, and plain memory
reads it back. A word read is two answers of the bus, the low byte's first (R103, R108, R114, R116). -/
def Obligations.WordsAreLittleEndian : Prop :=
  ∀ (s : State) (a w : Word),
    let u := s.writeWordAt a w
    u.mem.read a.toNat = lo8 w ∧ u.mem.read (a + 1).toNat = hi8 w
      ∧ (∀ b : Word, b ≠ a → b ≠ a + 1 → u.mem.read b.toNat = s.mem.read b.toNat)
      ∧ (s.agent = .plainMemory → u.wordAt a = w)
      ∧ s.wordAt a = cat (s.reply 1 (a + 1)) (s.reply 0 a)

/-- The canonical form of memory is kept by every host operation, a step among them (the model's own invariant). -/
def Obligations.CanonicalMemoryIsKept : Prop :=
  ∀ (o : HostOp) (s t : State), s.Inv → hostOp o s = .next t → t.Inv

/-- The state after reset has it. -/
def Obligations.ResetMemoryIsCanonical : Prop := State.reset.Inv

/-! ## The step -/

/-- A step that executes runs the row the decoder reads at PC, with EI_BLOCK cleared before it (R653, R654). -/
def Obligations.StepRunsTheDecodedRow : Prop :=
  ∀ (s : State) (i : Instr), s.Executes → decode .base s.window = .ok i → i.selects = none →
    step s = exec i { s with eiBlock := false }

/-- A step whose bytes at PC are those of a whole instruction fetches its prefix bytes and runs its row: one step (R153). -/
def Obligations.StepRunsInstruction : Prop :=
  ∀ (s : State) (i : Instr), s.Executes → i.wellFormed = true → i.selects = none → s.BytesAt s.pc (encodeFull i) →
    step s = exec i (State.opFetch^[i.page.leadIn.length] { s with eiBlock := false })

/-- The same after any run of DD and FD bytes that memory has room for: the last of them selects the index register, a base row
without an index form is left alone, and ED drops the selection (R571, R596). Each further byte is one M1 fetch. -/
def Obligations.StepRunsAfterIndexBytes : Prop :=
  ∀ (s : State) (ps : List Byte) (p : Byte) (i : Instr) (lead : List Byte),
    s.Executes → (∀ v ∈ ps, isIndexByte v = true) → isIndexByte p = true → ps.length < 65535 →
    i.wellFormed = true → i.selects = none → leadAfterIndex (indexOf p) i = some lead →
    s.BytesAt s.pc (ps ++ p :: lead ++ encode i) →
    step s = exec i (State.opFetch^[ps.length + 1 + lead.length] { s with eiBlock := false })

/-- A step stops in one case only: an instruction begins and its prefixes do not end. On plain memory that is the case in which every
byte is DD or FD, and in every other state the step completes (R596, R650, R708). On any bus a step that does not begin an
instruction completes, and so does one whose next 65,536 answers are not all DD or FD; that it gives up after 65,537 such answers is
the model's bound (notes/assumptions/10). -/
def Obligations.OnlyEndlessPrefixesStop : Prop :=
  ∀ s : State,
    (s.agent = .plainMemory →
      (s.Hangs → step s = .fault .endlessPrefixes) ∧ (¬ s.Hangs → ∃ t, step s = .next t))
    ∧ (¬ s.Executes ∨ ¬ s.PrefixesFor 65536 → ∃ t, step s = .next t)
    ∧ (s.Executes → s.PrefixesFor 65537 → step s = .fault .endlessPrefixes)

/-! ## What every row keeps -/

/-- Every row completes, from every state, and takes no request: the latches are as before, and so is the bus
the core is connected to. The other control bits change only by the rows whose rules say so (R71 to R75, R333, R335, R457 to R459, R650, R652). -/
def Obligations.EveryRowCompletesAndKeepsControlBits : Prop :=
  ∀ (i : Instr) (s : State), ∃ t, exec i s = .next t
    ∧ t.nmiPend = s.nmiPend ∧ t.irqPend = s.irqPend ∧ t.agent = s.agent
    ∧ (t.iff1 = s.iff1 ∨ i = .di ∨ i = .ei ∨ i = .reti ∨ ∃ y, i = .retn y)
    ∧ (t.iff2 = s.iff2 ∨ i = .di ∨ i = .ei)
    ∧ (t.im = s.im ∨ ∃ y, i = .im y)
    ∧ (t.halted = s.halted ∨ i = .halt)
    ∧ (t.eiBlock = s.eiBlock ∨ i = .ei)

/-- The registers outside the destinations of a row are unchanged, half by half; PC and the refresh count are stated apart. -/
def Obligations.RegistersOutsideDestKept : Prop :=
  ∀ (i : Instr) (s t : State) (k : ByteItem), exec i s = .next t → k ∉ i.dest → k.pair ≠ .pc → k ≠ ⟨.ir, .low⟩ →
    t.getByte k = s.getByte k

/-- The flags outside those the rule names are unchanged. -/
def Obligations.FlagsOutsideMaskKept : Prop :=
  ∀ (i : Instr) (s t : State), exec i s = .next t → t.f &&& ~~~i.flags = s.f &&& ~~~i.flags

/-- Every byte of memory outside those the row stores is as before, so plain memory reads as before; the addresses are computed from
the state the row starts in, as its meaning computes them. -/
def Obligations.MemoryOutsideStoresKept : Prop :=
  ∀ (i : Instr) (s t : State) (a : Word), exec i s = .next t → a ∉ i.stores s → t.mem.read a.toNat = s.mem.read a.toNat

/-- R counts the M1 fetches modulo 128 and keeps bit 7, for every row but LD R,A (R105, R174, R710). -/
def Obligations.RefreshCountsM1 : Prop :=
  ∀ (i : Instr) (s t : State), exec i s = .next t → i ≠ .ldRA →
    t.r.toNat % 128 = (s.r.toNat + i.m1) % 128 ∧ t.r.toNat / 128 = s.r.toNat / 128

/-- A step that runs a whole instruction adds the base ticks of its row of the opcode table to the bus trace (R173, R712). What a
row's ticks depend on is read in the state after the fetches of its prefix bytes, where the row starts;
the conditions are stated by flag bit in `Jumps`. That INC (HL) and DEC (HL) take 11, as their rows say, and not the 10 of R713 is the
model's reading (notes/assumptions/18). -/
def Obligations.StepTakesTableTicks : Prop :=
  ∀ (s t : State) (i : Instr), s.Executes → i.wellFormed = true → i.selects = none → s.BytesAt s.pc (encodeFull i) →
    step s = .next t → baseTicks t.bus = baseTicks s.bus + i.tstates (State.opFetch^[i.page.leadIn.length] s)

/-- Whatever a step does, T and the bus trace agree: the transactions it adds fill the time from the old T to the new one, each
with its base ticks and its contention at the T it started at; nothing else adds to T (R104, R715). -/
def Obligations.TimeIsTheSumOfTransactions : Prop :=
  ∀ s t : State, step s = .next t → ∃ es, t.bus = es ++ s.bus ∧ Fills s.t es t.t

/-- No result depends on T: from any other T and bus trace the same step gives the same registers, flags, memory, control bits and
draws; only T and the trace may differ (R712). The bus agent's answers are the same in both: they are numbered in order, not by T
(notes/assumptions/3). -/
def Obligations.ResultsDoNotDependOnTime : Prop :=
  ∀ (s u : State) (n : Nat) (es : List BusEvent), step s = .next u →
    ∃ m fs, step { s with t := n, bus := es } = .next { u with t := m, bus := fs }

/-! ## Flags -/

/-- SZ53: S, 5 and 3 are bits 7, 5 and 3 of v, Z is v = 0 and nothing else; PAR: PV when v has an even number of 1-bits;
SZ53P joins them (R63, R64, R65). -/
def Obligations.FlagTablesByValue : Prop :=
  ∀ v : Byte,
    (∀ k ∈ [7, 5, 3], bit (sz53 v) k = bit v k) ∧ bit (sz53 v) 6 = (v == 0)
      ∧ (∀ k ∈ [0, 1, 2, 4], bit (sz53 v) k = false)
      ∧ (par v = if ((List.range 8).filter (fun k => v.toNat / 2 ^ k % 2 = 1)).length % 2 = 0 then 0x04 else 0x00)
      ∧ sz53p v = sz53 v ||| par v

/-- The half-carry and overflow tables are the formulas of R70, for additions and subtractions of 8 and 16 bits. -/
def Obligations.HalfCarryAndOverflowFormulas : Prop :=
  (∀ (a b : Byte) (cin : Bool), let r := a + b + (if cin then 1 else 0)
    hcAdd (lookup8 a b r % 8) = when (bit (a ^^^ b ^^^ r) 4) 0x10
      ∧ ovAdd (lookup8 a b r / 16) = when (bit a 7 == bit b 7 && bit r 7 != bit a 7) 0x04)
  ∧ (∀ (a b : Byte) (cin : Bool), let r := a - b - (if cin then 1 else 0)
    hcSub (lookup8 a b r % 8) = when (bit (a ^^^ b ^^^ r) 4) 0x10
      ∧ ovSub (lookup8 a b r / 16) = when (bit a 7 != bit b 7 && bit r 7 != bit a 7) 0x04)
  ∧ (∀ (a b : Word) (cin : Bool), let r := a + b + (if cin then 1 else 0)
    hcAdd (lookup16 a b r % 8) = when ((a ^^^ b ^^^ r).getLsbD 12) 0x10
      ∧ ovAdd (lookup16 a b r / 16) = when (a.getLsbD 15 == b.getLsbD 15 && r.getLsbD 15 != a.getLsbD 15) 0x04)
  ∧ (∀ (a b : Word) (cin : Bool), let r := a - b - (if cin then 1 else 0)
    hcSub (lookup16 a b r % 8) = when ((a ^^^ b ^^^ r).getLsbD 12) 0x10
      ∧ ovSub (lookup16 a b r / 16) = when (a.getLsbD 15 != b.getLsbD 15 && r.getLsbD 15 != a.getLsbD 15) 0x04)

/-- An 8-bit addition: the sum modulo 256, C its carry, H the carry from bit 3, PV signed overflow, S, Z, 5 and 3 from the
result, N = 0 (R261). -/
def Obligations.AddFlagsByArithmetic : Prop :=
  ∀ (a b : Byte) (cin : Bool), let r := (add8 a b cin).1; let f := (add8 a b cin).2
    r.toNat = (a.toNat + b.toNat + cin.toNat) % 256
      ∧ bit f 0 = decide (255 < a.toNat + b.toNat + cin.toNat)
      ∧ bit f 1 = false
      ∧ bit f 2 = decide (a.toInt + b.toInt + cin.toNat < -128 ∨ 127 < a.toInt + b.toInt + cin.toNat)
      ∧ bit f 3 = bit r 3
      ∧ bit f 4 = decide (15 < a.toNat % 16 + b.toNat % 16 + cin.toNat)
      ∧ bit f 5 = bit r 5 ∧ bit f 6 = (r == 0) ∧ bit f 7 = bit r 7

/-- An 8-bit subtraction: the difference modulo 256, C its borrow, H the borrow into bit 4, PV signed overflow, N = 1; a compare
has the same flags but takes 5 and 3 from the operand (R262, R271). -/
def Obligations.SubFlagsByArithmetic : Prop :=
  ∀ (a b : Byte) (cin : Bool), let r := (sub8 a b cin).1; let f := (sub8 a b cin).2
    (r.toNat : Int) = ((a.toNat : Int) - b.toNat - cin.toNat) % 256
      ∧ bit f 0 = decide (a.toNat < b.toNat + cin.toNat)
      ∧ bit f 1 = true
      ∧ bit f 2 = decide (a.toInt - b.toInt - cin.toNat < -128 ∨ 127 < a.toInt - b.toInt - cin.toNat)
      ∧ bit f 3 = bit r 3
      ∧ bit f 4 = decide (a.toNat % 16 < b.toNat % 16 + cin.toNat)
      ∧ bit f 5 = bit r 5 ∧ bit f 6 = (r == 0) ∧ bit f 7 = bit r 7
      ∧ cp8 a b = ((sub8 a b false).2 &&& ~~~flag53) ||| (b &&& flag53)

/-- The 16-bit additions and subtraction: the result modulo 65,536, C from bit 15, H from bit 11, and for ADC and SBC PV signed
overflow, Z of the whole word and S, 5, 3 of its high byte; ADD keeps S, Z and PV (R290, R462, R463). -/
def Obligations.WordFlagsByArithmetic : Prop :=
  (∀ (a b : Word) (f : Byte), let r := (add16 a b f).1; let g := (add16 a b f).2
    r.toNat = (a.toNat + b.toNat) % 65536
      ∧ bit g 0 = decide (65535 < a.toNat + b.toNat) ∧ bit g 1 = false
      ∧ bit g 3 = r.getLsbD 11 ∧ bit g 4 = decide (4095 < a.toNat % 4096 + b.toNat % 4096) ∧ bit g 5 = r.getLsbD 13
      ∧ bit g 2 = bit f 2 ∧ bit g 6 = bit f 6 ∧ bit g 7 = bit f 7)
  ∧ (∀ (a b : Word) (f : Byte), let r := (adc16 a b f).1; let g := (adc16 a b f).2; let c := (carryOf f).toNat
    r.toNat = (a.toNat + b.toNat + c) % 65536
      ∧ bit g 0 = decide (65535 < a.toNat + b.toNat + c) ∧ bit g 1 = false
      ∧ bit g 2 = decide (a.toInt + b.toInt + c < -32768 ∨ 32767 < a.toInt + b.toInt + c)
      ∧ bit g 3 = r.getLsbD 11 ∧ bit g 4 = decide (4095 < a.toNat % 4096 + b.toNat % 4096 + c) ∧ bit g 5 = r.getLsbD 13
      ∧ bit g 6 = (r == 0) ∧ bit g 7 = r.getLsbD 15)
  ∧ (∀ (a b : Word) (f : Byte), let r := (sbc16 a b f).1; let g := (sbc16 a b f).2; let c := (carryOf f).toNat
    (r.toNat : Int) = ((a.toNat : Int) - b.toNat - c) % 65536
      ∧ bit g 0 = decide (a.toNat < b.toNat + c) ∧ bit g 1 = true
      ∧ bit g 2 = decide (a.toInt - b.toInt - c < -32768 ∨ 32767 < a.toInt - b.toInt - c)
      ∧ bit g 3 = r.getLsbD 11 ∧ bit g 4 = decide (a.toNat % 4096 < b.toNat % 4096 + c) ∧ bit g 5 = r.getLsbD 13
      ∧ bit g 6 = (r == 0) ∧ bit g 7 = r.getLsbD 15)

/-- INC and DEC give the flags of adding and subtracting 1, but for C, which is kept (R272, R274). -/
def Obligations.IncDecFlagsAreAddSubOfOne : Prop :=
  ∀ v f : Byte,
    incFlags v f = ((add8 v 1 false).2 &&& 0xFE) ||| (f &&& 0x01)
      ∧ decFlags v f = ((sub8 v 1 false).2 &&& 0xFE) ||| (f &&& 0x01)

/-- The eight shifts and rotates, bit by bit: what comes in at the end and what goes out into C (R402 to R409). -/
def Obligations.ShiftsBitByBit : Prop :=
  ∀ (cin : Bool) (v : Byte),
    (∀ o ∈ [RotOp.rlc, .rl, .sla, .sll], rotOut o v = bit v 7
      ∧ ∀ k < 7, bit (rotRes o cin v) (k + 1) = bit v k)
    ∧ (∀ o ∈ [RotOp.rrc, .rr, .sra, .srl], rotOut o v = bit v 0
      ∧ ∀ k < 7, bit (rotRes o cin v) k = bit v (k + 1))
    ∧ bit (rotRes .rlc cin v) 0 = bit v 7 ∧ bit (rotRes .rl cin v) 0 = cin
    ∧ bit (rotRes .sla cin v) 0 = false ∧ bit (rotRes .sll cin v) 0 = true
    ∧ bit (rotRes .rrc cin v) 7 = bit v 0 ∧ bit (rotRes .rr cin v) 7 = cin
    ∧ bit (rotRes .sra cin v) 7 = bit v 7 ∧ bit (rotRes .srl cin v) 7 = false

/-! ## Base page: loads, stack, exchanges -/

/-- The 8-bit loads (R200 to R204): the register, WZ of the forms that set it, and the Cycles line. -/
def Obligations.ByteLoads : Prop :=
  ∀ s : State,
    (∀ r r', exec (.ldRR r r') s = .next ((s.ran 1 [s.cFetch s.pc]).setReg r (s.reg r')))
    ∧ (∀ r n, exec (.ldRN r n) s = .next ((s.ran 2 [s.cFetch s.pc, s.cRead 1 (s.pc + 1)]).setReg r n))
    ∧ (∀ r, exec (.ldRIndHl r) s = .next ((s.ran 1 [s.cFetch s.pc, s.cRead 1 s.hl]).setReg r (s.reply 1 s.hl)))
    ∧ (∀ p, exec (.ldAIndRp p) s = .next
        { (s.ran 1 [s.cFetch s.pc, s.cRead 1 (s.bcDe p)]).setA (s.reply 1 (s.bcDe p)) with wz := s.bcDe p + 1 })
    ∧ (∀ nn, exec (.ldAIndNn nn) s = .next
        { (s.ran 3 [s.cFetch s.pc, s.cRead 1 (s.pc + 1), s.cRead 2 (s.pc + 2), s.cRead 3 nn]).setA (s.reply 3 nn) with
          wz := nn + 1 })

/-- The 8-bit stores (R205 to R208): the byte stored and its address, W from A where the form sets WZ. -/
def Obligations.ByteStores : Prop :=
  ∀ s : State,
    (∀ p, exec (.ldIndRpA p) s = .next
      { s.ran 1 [s.cFetch s.pc, cWrite (s.bcDe p) s.a] with
        mem := s.mem.write (s.bcDe p).toNat s.a, wz := cat s.a (lo8 (s.bcDe p) + 1) })
    ∧ (∀ nn, exec (.ldIndNnA nn) s = .next
      { s.ran 3 [s.cFetch s.pc, s.cRead 1 (s.pc + 1), s.cRead 2 (s.pc + 2), cWrite nn s.a] with
        mem := s.mem.write nn.toNat s.a, wz := cat s.a (lo8 nn + 1) })
    ∧ (∀ r, exec (.ldIndHlR r) s = .next
      { s.ran 1 [s.cFetch s.pc, cWrite s.hl (s.reg r)] with mem := s.mem.write s.hl.toNat (s.reg r) })
    ∧ (∀ n, exec (.ldIndHlN n) s = .next
      { s.ran 2 [s.cFetch s.pc, s.cRead 1 (s.pc + 1), cWrite s.hl n] with mem := s.mem.write s.hl.toNat n })

/-- The 16-bit loads and stores (R212 to R215, R464, R465): low byte at nn, high byte at nn + 1, WZ = nn + 1. -/
def Obligations.WordLoadsAndStores : Prop :=
  ∀ s : State,
    (∀ p nn, exec (.ldRpNn p nn) s = .next
      ((s.ran 3 [s.cFetch s.pc, s.cRead 1 (s.pc + 1), s.cRead 2 (s.pc + 2)]).setRp p nn))
    ∧ exec .ldSpHl s = .next { s.ran 1 (s.cFetch s.pc :: cIdle (countedIr s.ir) 2) with sp := s.hl }
    ∧ (∀ nn, exec (.ldHlIndNn nn) s = .next
      { s.ran 3 [s.cFetch s.pc, s.cRead 1 (s.pc + 1), s.cRead 2 (s.pc + 2), s.cRead 3 nn, s.cRead 4 (nn + 1)] with
        hl := cat (s.reply 4 (nn + 1)) (s.reply 3 nn), wz := nn + 1 })
    ∧ (∀ nn, exec (.ldIndNnHl nn) s = .next
      { s.ran 3 [s.cFetch s.pc, s.cRead 1 (s.pc + 1), s.cRead 2 (s.pc + 2), cWrite nn (lo8 s.hl), cWrite (nn + 1) (hi8 s.hl)] with
        mem := (s.mem.write nn.toNat (lo8 s.hl)).write (nn + 1).toNat (hi8 s.hl), wz := nn + 1 })
    ∧ (∀ p nn, exec (.ldRpIndNn p nn) s = .next
      ({ s.ran 3 [s.cFetch s.pc, s.cRead 1 (s.pc + 1), s.cRead 2 (s.pc + 2), s.cRead 3 nn, s.cRead 4 (nn + 1)] with
        wz := nn + 1 }.setRp p (cat (s.reply 4 (nn + 1)) (s.reply 3 nn))))
    ∧ (∀ p nn, exec (.ldIndNnRp p nn) s = .next
      { s.ran 3 [s.cFetch s.pc, s.cRead 1 (s.pc + 1), s.cRead 2 (s.pc + 2), cWrite nn (lo8 (s.rp p)),
          cWrite (nn + 1) (hi8 (s.rp p))] with
        mem := (s.mem.write nn.toNat (lo8 (s.rp p))).write (nn + 1).toNat (hi8 (s.rp p)), wz := nn + 1 })

/-- PUSH stores the high byte at SP - 1 first and the low byte at SP - 2; POP reads low then high; POP AF loads all of F
(R210, R211, R216, R217). -/
def Obligations.PushAndPop : Prop :=
  ∀ (s : State) (p : Rp2),
    exec (.pushRp2 p) s = .next
      { s.ran 1 (s.cFetch s.pc :: cIdle (countedIr s.ir) 1
          ++ [cWrite (s.sp - 1) (hi8 (s.rp2 p)), cWrite (s.sp - 2) (lo8 (s.rp2 p))]) with
        sp := s.sp - 2, mem := (s.mem.write (s.sp - 1).toNat (hi8 (s.rp2 p))).write (s.sp - 2).toNat (lo8 (s.rp2 p)) }
    ∧ exec (.popRp2 p) s = .next
      ({ s.ran 1 [s.cFetch s.pc, s.cRead 1 s.sp, s.cRead 2 (s.sp + 1)] with sp := s.sp + 2 }.setRp2 p
        (cat (s.reply 2 (s.sp + 1)) (s.reply 1 s.sp)))

/-- The exchanges (R229 to R232). -/
def Obligations.Exchanges : Prop :=
  ∀ s : State,
    exec .exAfAf s = .next { s.ran 1 [s.cFetch s.pc] with af := s.afAlt, afAlt := s.af }
    ∧ exec .exx s = .next
      { s.ran 1 [s.cFetch s.pc] with
        bc := s.bcAlt, de := s.deAlt, hl := s.hlAlt, bcAlt := s.bc, deAlt := s.de, hlAlt := s.hl }
    ∧ exec .exDeHl s = .next { s.ran 1 [s.cFetch s.pc] with de := s.hl, hl := s.de }
    ∧ exec .exIndSpHl s = .next
      { s.ran 1 (s.cFetch s.pc :: s.cRead 1 s.sp :: s.cRead 2 (s.sp + 1) :: cIdle (s.sp + 1) 1
          ++ [cWrite (s.sp + 1) (hi8 s.hl), cWrite s.sp (lo8 s.hl)] ++ cIdle s.sp 2) with
        hl := cat (s.reply 2 (s.sp + 1)) (s.reply 1 s.sp), wz := cat (s.reply 2 (s.sp + 1)) (s.reply 1 s.sp)
        mem := (s.mem.write (s.sp + 1).toNat (hi8 s.hl)).write s.sp.toNat (lo8 s.hl) }

/-- EXX swaps {BC, DE, HL} with their shadows and EX AF,AF' only AF with its shadow; each done twice restores every register,
I included; PC and R count the fetches of the two instructions (R53). -/
def Obligations.ExchangesAreInvolutions : Prop :=
  ∀ s : State,
    (∃ t u, exec .exx s = .next t ∧ exec .exx t = .next u
      ∧ t.bc = s.bcAlt ∧ t.de = s.deAlt ∧ t.hl = s.hlAlt ∧ t.bcAlt = s.bc ∧ t.deAlt = s.de ∧ t.hlAlt = s.hl
      ∧ t.af = s.af ∧ t.afAlt = s.afAlt ∧ (∀ k : WordItem, k ≠ .pc → k ≠ .ir → u.getWord k = s.getWord k)
      ∧ t.i = s.i ∧ u.i = s.i)
    ∧ (∃ t u, exec .exAfAf s = .next t ∧ exec .exAfAf t = .next u ∧ t.af = s.afAlt ∧ t.afAlt = s.af
      ∧ (∀ k : WordItem, k ≠ .af → k ≠ .afAlt → k ≠ .pc → k ≠ .ir → t.getWord k = s.getWord k)
      ∧ (∀ k : WordItem, k ≠ .pc → k ≠ .ir → u.getWord k = s.getWord k)
      ∧ t.i = s.i ∧ u.i = s.i)

/-! ## Base page: arithmetic and logic -/

/-- The eight 8-bit operations (R264 to R271). First the new A and F, operation by operation: ADC and SBC take the carry flag in; H is
the carry or borrow at bit 4, PV signed overflow for the additions, subtractions and CP and parity for AND, XOR and OR, C the carry or
borrow out, N is 1 after a subtraction, AND sets H; CP keeps A and takes 5 and 3 from its operand. Then each operation with a
register, (HL) and an immediate. -/
def Obligations.ByteArithmeticAndLogic : Prop :=
  (∀ a f v : Byte,
    let carry : Byte := if bit f 0 then 1 else 0
    let addFlags := fun (c : Bool) (r : Byte) => sz53 r ||| (if bit (a ^^^ v ^^^ r) 4 then 0x10 else 0)
      ||| (if bit a 7 = bit v 7 ∧ bit r 7 ≠ bit a 7 then 0x04 else 0)
      ||| (if 255 < a.toNat + v.toNat + c.toNat then 0x01 else 0)
    let subFlags := fun (c : Bool) (r : Byte) => (if bit (a ^^^ v ^^^ r) 4 then 0x10 else 0)
      ||| (if bit a 7 ≠ bit v 7 ∧ bit r 7 ≠ bit a 7 then 0x04 else 0) ||| 0x02
      ||| (if a.toNat < v.toNat + c.toNat then 0x01 else 0)
    aluResult .add a f v = (a + v, addFlags false (a + v))
      ∧ aluResult .adc a f v = (a + v + carry, addFlags (bit f 0) (a + v + carry))
      ∧ aluResult .sub a f v = (a - v, sz53 (a - v) ||| subFlags false (a - v))
      ∧ aluResult .sbc a f v = (a - v - carry, sz53 (a - v - carry) ||| subFlags (bit f 0) (a - v - carry))
      ∧ aluResult .and a f v = (a &&& v, sz53p (a &&& v) ||| 0x10)
      ∧ aluResult .xor a f v = (a ^^^ v, sz53p (a ^^^ v))
      ∧ aluResult .or a f v = (a ||| v, sz53p (a ||| v))
      ∧ aluResult .cp a f v = (a, (sz53 (a - v) &&& 0xC0) ||| (v &&& 0x28) ||| subFlags false (a - v)))
  ∧ ∀ (s : State) (o : AluOp),
    (∀ r, exec (o.onR r) s = .next ((s.ran 1 [s.cFetch s.pc]).setAF (aluResult o s.a s.f (s.reg r))))
    ∧ exec o.onIndHl s = .next
      ((s.ran 1 [s.cFetch s.pc, s.cRead 1 s.hl]).setAF (aluResult o s.a s.f (s.reply 1 s.hl)))
    ∧ (∀ n, exec (o.onN n) s = .next
      ((s.ran 2 [s.cFetch s.pc, s.cRead 1 (s.pc + 1)]).setAF (aluResult o s.a s.f n)))

/-- INC and DEC of a register and of (HL) (R272 to R275). The 11 ticks of the (HL) forms are those of R273 and R275, not the 10 of
R713, which is the model's reading (notes/assumptions/18). -/
def Obligations.ByteIncrements : Prop :=
  ∀ s : State,
    (∀ r, exec (.incR r) s = .next
      (((s.ran 1 [s.cFetch s.pc]).setF (incFlags (s.reg r) s.f)).setReg r (s.reg r + 1)))
    ∧ (∀ r, exec (.decR r) s = .next
      (((s.ran 1 [s.cFetch s.pc]).setF (decFlags (s.reg r) s.f)).setReg r (s.reg r - 1)))
    ∧ (let v := s.reply 1 s.hl; exec .incIndHl s = .next
      ({ s.ran 1 (s.cFetch s.pc :: s.cRead 1 s.hl :: cIdle s.hl 1 ++ [cWrite s.hl (v + 1)]) with
        mem := s.mem.write s.hl.toNat (v + 1) }.setF (incFlags v s.f)))
    ∧ (let v := s.reply 1 s.hl; exec .decIndHl s = .next
      ({ s.ran 1 (s.cFetch s.pc :: s.cRead 1 s.hl :: cIdle s.hl 1 ++ [cWrite s.hl (v - 1)]) with
        mem := s.mem.write s.hl.toNat (v - 1) }.setF (decFlags v s.f)))

/-- DAA, CPL, SCF, CCF and the four rotates of A (R276 to R283), with `SCF_CCF_XY = A` (R17). -/
def Obligations.AccumulatorAdjustAndRotates : Prop :=
  ∀ s : State, let u := s.ran 1 [s.cFetch s.pc]
    (exec .daa s = .next (u.setAF
      (let c := bit s.f 0 || decide (0x99 < s.a.toNat)
       let lo := s.a.toNat % 16
       let d : Byte := (if c then 0x60 else 0) ||| (if bit s.f 4 || decide (9 < lo) then 0x06 else 0)
       let a : Byte := if bit s.f 1 then s.a - d else s.a + d
       let h := if bit s.f 1 then bit s.f 4 && decide (lo < 6) else decide (9 < lo)
       (a, sz53p a ||| (if h then 0x10 else 0) ||| (s.f &&& 0x02) ||| (if c then 0x01 else 0)))))
    ∧ exec .cpl s = .next (u.setAF (s.a ^^^ 0xFF, (s.f &&& 0xC5) ||| 0x12 ||| ((s.a ^^^ 0xFF) &&& 0x28)))
    ∧ exec .scf s = .next (u.setF ((s.f &&& 0xC4) ||| 0x01 ||| (s.a &&& 0x28)))
    ∧ exec .ccf s = .next (u.setF ((s.f &&& 0xC4) ||| (s.a &&& 0x28) ||| (if bit s.f 0 then 0x10 else 0x01)))
    ∧ (let a := rotRes .rlc (bit s.f 0) s.a; exec .rlca s = .next
      (u.setAF (a, (s.f &&& 0xC4) ||| (a &&& 0x28) ||| (if bit s.a 7 then 0x01 else 0))))
    ∧ (let a := rotRes .rrc (bit s.f 0) s.a; exec .rrca s = .next
      (u.setAF (a, (s.f &&& 0xC4) ||| (a &&& 0x28) ||| (if bit s.a 0 then 0x01 else 0))))
    ∧ (let a := rotRes .rl (bit s.f 0) s.a; exec .rla s = .next
      (u.setAF (a, (s.f &&& 0xC4) ||| (a &&& 0x28) ||| (if bit s.a 7 then 0x01 else 0))))
    ∧ (let a := rotRes .rr (bit s.f 0) s.a; exec .rra s = .next
      (u.setAF (a, (s.f &&& 0xC4) ||| (a &&& 0x28) ||| (if bit s.a 0 then 0x01 else 0))))

/-- The 16-bit additions and subtraction, INC and DEC (R290 to R292, R462, R463). `add16`, `adc16` and `sbc16` are stated by
`WordFlagsByArithmetic`. -/
def Obligations.WordArithmetic : Prop :=
  ∀ (s : State) (p : Rp),
    exec (.addHlRp p) s = .next
      { (s.ran 1 (s.cFetch s.pc :: cIdle (countedIr s.ir) 7)).setF (add16 s.hl (s.rp p) s.f).2 with
        hl := (add16 s.hl (s.rp p) s.f).1, wz := s.hl + 1 }
    ∧ exec (.adcHlRp p) s = .next
      { (s.ran 1 (s.cFetch s.pc :: cIdle (countedIr s.ir) 7)).setF (adc16 s.hl (s.rp p) s.f).2 with
        hl := (adc16 s.hl (s.rp p) s.f).1, wz := s.hl + 1 }
    ∧ exec (.sbcHlRp p) s = .next
      { (s.ran 1 (s.cFetch s.pc :: cIdle (countedIr s.ir) 7)).setF (sbc16 s.hl (s.rp p) s.f).2 with
        hl := (sbc16 s.hl (s.rp p) s.f).1, wz := s.hl + 1 }
    ∧ exec (.incRp p) s = .next ((s.ran 1 (s.cFetch s.pc :: cIdle (countedIr s.ir) 2)).setRp p (s.rp p + 1))
    ∧ exec (.decRp p) s = .next ((s.ran 1 (s.cFetch s.pc :: cIdle (countedIr s.ir) 2)).setRp p (s.rp p - 1))

/-! ## Control -/

/-- NOP, HALT, DI, EI and IM (R330, R332, R333, R335, R459): HALT leaves PC at its own byte. ED 4E and ED 6E set
`IM_UNDEF_MODE`, mode 0 by default (R19, R162). -/
def Obligations.ControlRows : Prop :=
  ∀ s : State, let u := s.ran 1 [s.cFetch s.pc]
    exec .nop s = .next u
    ∧ exec .halt s = .next { u with halted := true, pc := s.pc }
    ∧ exec .di s = .next { u with iff1 := false, iff2 := false }
    ∧ exec .ei s = .next { u with iff1 := true, iff2 := true, eiBlock := true }
    ∧ (∀ y, exec (.im y) s = .next
      { u with im := [IntMode.im0, .im0, .im1, .im2, .im0, .im0, .im1, .im2].getD y.toNat .im0 })

/-- The jumps (R340 to R345). A relative target is PC after the instruction plus the signed byte; JP cc sets WZ taken or not, the
relative jumps only when taken. The eight conditions are NZ, Z, NC, C, PO, PE, P, M: Z, C, PV, S clear or set; JR has the first four
(R61, R159). -/
def Obligations.Jumps : Prop :=
  (∀ f : Byte, [Cond.nz, .z, .nc, .c, .po, .pe, .p, .m].map (·.holds f)
      = [!bit f 6, bit f 6, !bit f 0, bit f 0, !bit f 2, bit f 2, !bit f 7, bit f 7])
  ∧ [JrCond.nz, .z, .nc, .c].map JrCond.cond = [Cond.nz, .z, .nc, .c]
  ∧ ∀ s : State,
    (∀ nn, exec (.jpNn nn) s = .next
      { s.ran 3 [s.cFetch s.pc, s.cRead 1 (s.pc + 1), s.cRead 2 (s.pc + 2)] with pc := nn, wz := nn })
    ∧ (∀ cc nn, exec (.jpCcNn cc nn) s = .next
      { s.ran 3 [s.cFetch s.pc, s.cRead 1 (s.pc + 1), s.cRead 2 (s.pc + 2)] with
        pc := if cc.holds s.f then nn else s.pc + 3, wz := nn })
    ∧ exec .jpIndHl s = .next { s.ran 1 [s.cFetch s.pc] with pc := s.hl }
    ∧ (∀ e, exec (.jr e) s = .next
      { s.ran 2 (s.cFetch s.pc :: s.cRead 1 (s.pc + 1) :: cIdle (s.pc + 1) 5) with
        pc := s.pc + 2 + sext16 e, wz := s.pc + 2 + sext16 e })
    ∧ (∀ cc e, exec (.jrCc cc e) s = .next
      (if cc.cond.holds s.f then
        { s.ran 2 (s.cFetch s.pc :: s.cRead 1 (s.pc + 1) :: cIdle (s.pc + 1) 5) with
          pc := s.pc + 2 + sext16 e, wz := s.pc + 2 + sext16 e }
      else s.ran 2 [s.cFetch s.pc, s.cRead 1 (s.pc + 1)]))
    ∧ (∀ e, exec (.djnz e) s = .next
      (if s.b = 1 then
        (s.ran 2 (s.cFetch s.pc :: cIdle (countedIr s.ir) 1 ++ [s.cRead 1 (s.pc + 1)])).setB (s.b - 1)
      else
        { (s.ran 2 (s.cFetch s.pc :: cIdle (countedIr s.ir) 1 ++ s.cRead 1 (s.pc + 1) :: cIdle (s.pc + 1) 5)).setB (s.b - 1) with
          pc := s.pc + 2 + sext16 e, wz := s.pc + 2 + sext16 e }))

/-- The calls, the restarts and the returns (R347 to R351, R457, R458): a call pushes the address after it; RETI and RETN copy
IFF2 into IFF1. The conditions are those of the jumps, by flag bit (R61, R159). -/
def Obligations.CallsAndReturns : Prop :=
  (∀ f : Byte, [Cond.nz, .z, .nc, .c, .po, .pe, .p, .m].map (·.holds f)
      = [!bit f 6, bit f 6, !bit f 0, bit f 0, !bit f 2, bit f 2, !bit f 7, bit f 7])
  ∧ ∀ s : State, let ret := cat (s.reply 2 (s.sp + 1)) (s.reply 1 s.sp)
    (∀ nn, exec (.callNn nn) s = .next
      { s.ran 3 (s.cFetch s.pc :: s.cRead 1 (s.pc + 1) :: s.cRead 2 (s.pc + 2) :: cIdle (s.pc + 2) 1
          ++ [cWrite (s.sp - 1) (hi8 (s.pc + 3)), cWrite (s.sp - 2) (lo8 (s.pc + 3))]) with
        pc := nn, wz := nn, sp := s.sp - 2
        mem := (s.mem.write (s.sp - 1).toNat (hi8 (s.pc + 3))).write (s.sp - 2).toNat (lo8 (s.pc + 3)) })
    ∧ (∀ cc nn, exec (.callCcNn cc nn) s =
      if cc.holds s.f then exec (.callNn nn) s
      else .next { s.ran 3 [s.cFetch s.pc, s.cRead 1 (s.pc + 1), s.cRead 2 (s.pc + 2)] with wz := nn })
    ∧ (∀ y : BitVec 3, let p : Word := BitVec.ofNat 16 (8 * y.toNat); exec (.rst y) s = .next
      { s.ran 1 (s.cFetch s.pc :: cIdle (countedIr s.ir) 1
          ++ [cWrite (s.sp - 1) (hi8 (s.pc + 1)), cWrite (s.sp - 2) (lo8 (s.pc + 1))]) with
        pc := p, wz := p, sp := s.sp - 2
        mem := (s.mem.write (s.sp - 1).toNat (hi8 (s.pc + 1))).write (s.sp - 2).toNat (lo8 (s.pc + 1)) })
    ∧ exec .ret s = .next
      { s.ran 1 [s.cFetch s.pc, s.cRead 1 s.sp, s.cRead 2 (s.sp + 1)] with pc := ret, wz := ret, sp := s.sp + 2 }
    ∧ (∀ cc, exec (.retCc cc) s = .next
      (if cc.holds s.f then
        { s.ran 1 (s.cFetch s.pc :: cIdle (countedIr s.ir) 1 ++ [s.cRead 1 s.sp, s.cRead 2 (s.sp + 1)]) with
          pc := ret, wz := ret, sp := s.sp + 2 }
      else s.ran 1 (s.cFetch s.pc :: cIdle (countedIr s.ir) 1)))
    ∧ exec .reti s = .next
      { s.ran 1 [s.cFetch s.pc, s.cRead 1 s.sp, s.cRead 2 (s.sp + 1)] with
        pc := ret, wz := ret, sp := s.sp + 2, iff1 := s.iff2 }
    ∧ (∀ y, exec (.retn y) s = .next
      { s.ran 1 [s.cFetch s.pc, s.cRead 1 s.sp, s.cRead 2 (s.sp + 1)] with
        pc := ret, wz := ret, sp := s.sp + 2, iff1 := s.iff2 })

/-- The port instructions (R353, R354, R450 to R453): the port is cat(A, n) or BC, the byte read is a draw of the bus agent, and C is kept
where flags are set. -/
def Obligations.PortRows : Prop :=
  ∀ s : State,
    (∀ n, exec (.inAN n) s = .next
      { (s.ran 2 [s.cFetch s.pc, s.cRead 1 (s.pc + 1), s.cIn 2 (cat s.a n)]).setA (s.portReply 2 (cat s.a n)) with
        wz := cat s.a n + 1 })
    ∧ (∀ n, exec (.outNA n) s = .next
      { s.ran 2 [s.cFetch s.pc, s.cRead 1 (s.pc + 1), cOut (cat s.a n) s.a] with wz := cat s.a (n + 1) })
    ∧ (∀ r, let v := s.portReply 1 s.bc; exec (.inRC r) s = .next
      ({ (s.ran 1 [s.cFetch s.pc, s.cIn 1 s.bc]).setF ((s.f &&& 0x01) ||| sz53p v) with
        wz := s.bc + 1 }.setReg r v))
    ∧ exec .inC s = .next
      { (s.ran 1 [s.cFetch s.pc, s.cIn 1 s.bc]).setF ((s.f &&& 0x01) ||| sz53p (s.portReply 1 s.bc)) with
        wz := s.bc + 1 }
    ∧ (∀ r, exec (.outCR r) s = .next { s.ran 1 [s.cFetch s.pc, cOut s.bc (s.reg r)] with wz := s.bc + 1 })
    ∧ exec .outC0 s = .next { s.ran 1 [s.cFetch s.pc, cOut s.bc Config.outCZeroValue] with wz := s.bc + 1 }

/-! ## CB page -/

/-- Shifts, rotates, BIT, RES and SET of a register and of (HL) (R400 to R413). `rotRes` and `rotOut` are stated by
`ShiftsBitByBit`. BIT b,(HL) takes 5 and 3 from W. -/
def Obligations.CbPageRows : Prop :=
  ∀ s : State, let v := s.reply 1 s.hl
    (∀ o r, exec (RotOp.onR o r) s = .next
      (((s.ran 1 [s.cFetch s.pc]).setF
        (sz53p (rotRes o (bit s.f 0) (s.reg r)) ||| (if rotOut o (s.reg r) then 0x01 else 0))).setReg r
          (rotRes o (bit s.f 0) (s.reg r))))
    ∧ (∀ o, exec (RotOp.onIndHl o) s = .next
      ({ s.ran 1 (s.cFetch s.pc :: s.cRead 1 s.hl :: cIdle s.hl 1 ++ [cWrite s.hl (rotRes o (bit s.f 0) v)]) with
        mem := s.mem.write s.hl.toNat (rotRes o (bit s.f 0) v) }.setF
          (sz53p (rotRes o (bit s.f 0) v) ||| (if rotOut o v then 0x01 else 0))))
    ∧ (∀ b r, exec (.bitBR b r) s = .next
      ((s.ran 1 [s.cFetch s.pc]).setF ((s.f &&& 0x01) ||| 0x10 ||| (s.reg r &&& 0x28)
        ||| (if bit (s.reg r) b.toNat then (if b = 7 then 0x80 else 0) else 0x44))))
    ∧ (∀ b, exec (.bitBIndHl b) s = .next
      ((s.ran 1 (s.cFetch s.pc :: s.cRead 1 s.hl :: cIdle s.hl 1)).setF ((s.f &&& 0x01) ||| 0x10 ||| (hi8 s.wz &&& 0x28)
        ||| (if bit v b.toNat then (if b = 7 then 0x80 else 0) else 0x44))))
    ∧ (∀ b r, exec (.resBR b r) s = .next
      ((s.ran 1 [s.cFetch s.pc]).setReg r (s.reg r &&& (0xFF ^^^ ((1 : Byte) <<< b.toNat)))))
    ∧ (∀ b r, exec (.setBR b r) s = .next ((s.ran 1 [s.cFetch s.pc]).setReg r (s.reg r ||| ((1 : Byte) <<< b.toNat))))
    ∧ (∀ b : BitVec 3, let w := v &&& (0xFF ^^^ ((1 : Byte) <<< b.toNat)); exec (.resBIndHl b) s = .next
      { s.ran 1 (s.cFetch s.pc :: s.cRead 1 s.hl :: cIdle s.hl 1 ++ [cWrite s.hl w]) with mem := s.mem.write s.hl.toNat w })
    ∧ (∀ b : BitVec 3, let w := v ||| ((1 : Byte) <<< b.toNat); exec (.setBIndHl b) s = .next
      { s.ran 1 (s.cFetch s.pc :: s.cRead 1 s.hl :: cIdle s.hl 1 ++ [cWrite s.hl w]) with mem := s.mem.write s.hl.toNat w })

/-! ## ED page -/

/-- NEG, the moves of I and R, RLD, RRD and the no-operations (R454, R460, R461, R466 to R470). LD R,A writes all of R after its
own count; LD A,R sees the count of this row. -/
def Obligations.EdPageRows : Prop :=
  ∀ s : State, let u := s.ran 1 (s.cFetch s.pc :: cIdle (countedIr s.ir) 1); let m := s.reply 1 s.hl
    (∀ y, exec (.neg y) s = .next ((s.ran 1 [s.cFetch s.pc]).setAF (sub8 0 s.a false)))
    ∧ exec .ldIA s = .next { u with ir := cat s.a (lo8 (countedIr s.ir)) }
    ∧ exec .ldRA s = .next { u with ir := cat (hi8 s.ir) s.a }
    ∧ exec .ldAI s = .next
      (u.setAF (hi8 s.ir, (s.f &&& 0x01) ||| sz53 (hi8 s.ir) ||| (if s.iff2 then 0x04 else 0)))
    ∧ (let r := nextR (lo8 s.ir); exec .ldAR s = .next
      (u.setAF (r, (s.f &&& 0x01) ||| sz53 r ||| (if s.iff2 then 0x04 else 0))))
    ∧ (let a := (s.a &&& 0xF0) ||| (m >>> 4); let w := (m <<< 4) ||| (s.a &&& 0x0F); exec .rld s = .next
      { (s.ran 1 (s.cFetch s.pc :: s.cRead 1 s.hl :: cIdle s.hl 4 ++ [cWrite s.hl w])).setAF
          (a, (s.f &&& 0x01) ||| sz53p a) with
        mem := s.mem.write s.hl.toNat w, wz := s.hl + 1 })
    ∧ (let a := (s.a &&& 0xF0) ||| (m &&& 0x0F); let w := ((s.a &&& 0x0F) <<< 4) ||| (m >>> 4); exec .rrd s = .next
      { (s.ran 1 (s.cFetch s.pc :: s.cRead 1 s.hl :: cIdle s.hl 4 ++ [cWrite s.hl w])).setAF
          (a, (s.f &&& 0x01) ||| sz53p a) with
        mem := s.mem.write s.hl.toNat w, wz := s.hl + 1 })
    ∧ (∀ q, exec (.nopEd q) s = .next (s.ran 1 [s.cFetch s.pc]))
    ∧ (∀ op, exec (.noni op) s = .next (s.ran 1 [s.cFetch s.pc]))

/-- LDI, LDD, LDIR and LDDR (R521 to R525): the byte goes from (HL) to (DE), n = byte + A gives 5 and 3, PV is BC ≠ 0, and a
repeating row sets PC back to the ED byte while BC ≠ 0. -/
def Obligations.BlockCopies : Prop :=
  ∀ (s : State) (up : Bool), let dir : Word := if up then 1 else -1; let v := s.reply 1 s.hl; let n := v + s.a
    let u := { (s.ran 1 (s.cFetch s.pc :: s.cRead 1 s.hl :: cWrite s.de v :: cIdle s.de 2)).setF
          ((s.f &&& 0xC1) ||| (if s.bc - 1 = 0 then 0 else 0x04) ||| (if bit n 1 then 0x20 else 0)
            ||| (if bit n 3 then 0x08 else 0)) with
        bc := s.bc - 1, hl := s.hl + dir, de := s.de + dir, mem := s.mem.write s.de.toNat v }
    exec (if up then .ldi else .ldd) s = .next u
    ∧ exec (if up then .ldir else .lddr) s = .next
      (if s.bc - 1 = 0 then u else { u.through (cIdle s.de 5) with pc := s.pc - 1, wz := s.pc })

/-- CPI, CPD, CPIR and CPDR (R521, R526 to R529): the flags of A - (HL), with n = result - H for 5 and 3 and C kept; a repeating
row goes on while BC ≠ 0 and A ≠ (HL). -/
def Obligations.BlockCompares : Prop :=
  ∀ (s : State) (up : Bool), let dir : Word := if up then 1 else -1; let v := s.reply 1 s.hl; let res := s.a - v
    let h := hcSub (lookup8 s.a v res % 8); let n := res - (if h = 0 then 0 else 1)
    let u := { (s.ran 1 (s.cFetch s.pc :: s.cRead 1 s.hl :: cIdle s.hl 5)).setF
          ((s.f &&& 0x01) ||| 0x02 ||| h ||| (sz53 res &&& 0xC0) ||| (if s.bc - 1 = 0 then 0 else 0x04)
            ||| (if bit n 1 then 0x20 else 0) ||| (if bit n 3 then 0x08 else 0)) with
        bc := s.bc - 1, hl := s.hl + dir }
    exec (if up then .cpi else .cpd) s = .next { u with wz := s.wz + dir }
    ∧ exec (if up then .cpir else .cpdr) s = .next
      (if s.bc - 1 = 0 ∨ res = 0 then { u with wz := s.wz + dir }
      else { u.through (cIdle s.hl 5) with pc := s.pc - 1, wz := s.pc })

/-- INI, IND, INIR and INDR, OUTI, OUTD, OTIR and OTDR (R521, R530 to R538): the port of an input is BC before B is decremented,
of an output BC after. A repeating row goes on while B ≠ 0. First the flags of R538 bit by bit: S, Z, 5 and 3 from the new B, N is bit 7
of the byte moved, H and C say k > 255, PV is the parity of (k AND 7) XOR B. -/
def Obligations.BlockPortRows : Prop :=
  (∀ (b v : Byte) (k : Nat), let f := ioFlags b v k
    (∀ n ∈ [7, 5, 3], bit f n = bit b n) ∧ bit f 6 = (b == 0) ∧ bit f 1 = bit v 7
      ∧ bit f 4 = decide (255 < k) ∧ bit f 0 = decide (255 < k)
      ∧ bit f 2 = (((List.range 8).filter (fun j => (k % 8 ^^^ b.toNat) / 2 ^ j % 2 = 1)).length % 2 == 0))
  ∧ ∀ (s : State) (up : Bool), let dir : Word := if up then 1 else -1
    let v := s.portReply 1 s.bc; let x := s.reply 1 s.hl; let b := s.b - 1
    let u := { (s.ran 1 (s.cFetch s.pc :: cIdle (countedIr s.ir) 1 ++ [s.cIn 1 s.bc, cWrite s.hl v])).setF
          (ioFlags b v (v.toNat + (s.c + lo8 dir).toNat)) with
        bc := cat b s.c, hl := s.hl + dir, wz := s.bc + dir, mem := s.mem.write s.hl.toNat v }
    let w := { (s.ran 1 (s.cFetch s.pc :: cIdle (countedIr s.ir) 1 ++ [s.cRead 1 s.hl, cOut (cat b s.c) x])).setF
          (ioFlags b x (x.toNat + (lo8 (s.hl + dir)).toNat)) with
        bc := cat b s.c, hl := s.hl + dir, wz := cat b s.c + dir }
    exec (if up then .ini else .ind) s = .next u
    ∧ exec (if up then .inir else .indr) s = .next
      (if b = 0 then u else { u.through (cIdle s.hl 5) with pc := s.pc - 1 })
    ∧ exec (if up then .outi else .outd) s = .next w
    ∧ exec (if up then .otir else .otdr) s = .next
      (if b = 0 then w else { w.through (cIdle (cat b s.c) 5) with pc := s.pc - 1 })

/-! ## DD and FD pages -/

/-- The loads of the index pages (R573 to R579, R591, R592), for IX and IY: the effective address is the index register plus the
signed displacement, and WZ becomes it; r[4] and r[5] beside it are the real H and L. -/
def Obligations.IndexLoads : Prop :=
  ∀ (s : State) (x : Index),
    (∀ d r, let ea := s.idx x + sext16 d
      exec (x.pick (.ldRIndIxD r d) (.ldRIndIyD r d)) s = .next
        ({ s.ran 2 (s.cFetch s.pc :: s.cRead 1 (s.pc + 1) :: cIdle (s.pc + 1) 5 ++ [s.cRead 2 ea]) with
          wz := ea }.setReg r (s.reply 2 ea)))
    ∧ (∀ d r, let ea := s.idx x + sext16 d
      exec (x.pick (.ldIndIxDR d r) (.ldIndIyDR d r)) s = .next
        { s.ran 2 (s.cFetch s.pc :: s.cRead 1 (s.pc + 1) :: cIdle (s.pc + 1) 5 ++ [cWrite ea (s.reg r)]) with
          wz := ea, mem := s.mem.write ea.toNat (s.reg r) })
    ∧ (∀ d n, let ea := s.idx x + sext16 d
      exec (x.pick (.ldIndIxDN d n) (.ldIndIyDN d n)) s = .next
        { s.ran 3 (s.cFetch s.pc :: s.cRead 1 (s.pc + 1) :: s.cRead 2 (s.pc + 2) :: cIdle (s.pc + 2) 2 ++ [cWrite ea n]) with
          wz := ea, mem := s.mem.write ea.toNat n })
    ∧ (∀ nn, exec (x.pick (.ldIxNn nn) (.ldIyNn nn)) s = .next
      ((s.ran 3 [s.cFetch s.pc, s.cRead 1 (s.pc + 1), s.cRead 2 (s.pc + 2)]).setIdx x nn))
    ∧ (∀ nn, exec (x.pick (.ldIxIndNn nn) (.ldIyIndNn nn)) s = .next
      ({ s.ran 3 [s.cFetch s.pc, s.cRead 1 (s.pc + 1), s.cRead 2 (s.pc + 2), s.cRead 3 nn, s.cRead 4 (nn + 1)] with
        wz := nn + 1 }.setIdx x (cat (s.reply 4 (nn + 1)) (s.reply 3 nn))))
    ∧ (∀ nn, exec (x.pick (.ldIndNnIx nn) (.ldIndNnIy nn)) s = .next
      { s.ran 3 [s.cFetch s.pc, s.cRead 1 (s.pc + 1), s.cRead 2 (s.pc + 2), cWrite nn (lo8 (s.idx x)),
          cWrite (nn + 1) (hi8 (s.idx x))] with
        wz := nn + 1, mem := (s.mem.write nn.toNat (lo8 (s.idx x))).write (nn + 1).toNat (hi8 (s.idx x)) })
    ∧ (∀ h n, exec (x.pick (.ldIxHalfN h n) (.ldIyHalfN h n)) s = .next
      ((s.ran 2 [s.cFetch s.pc, s.cRead 1 (s.pc + 1)]).setHalf x h n))
    ∧ (∀ r h, exec (x.pick (.ldRIxHalf r h) (.ldRIyHalf r h)) s = .next
      ((s.ran 1 [s.cFetch s.pc]).setReg (regNoHL r) (s.half x h)))
    ∧ (∀ h r, exec (x.pick (.ldIxHalfR h r) (.ldIyHalfR h r)) s = .next
      ((s.ran 1 [s.cFetch s.pc]).setHalf x h (s.regX x r)))

/-- The arithmetic of the index pages (R580 to R582, R588 to R590, R593 to R595), for IX and IY. `aluResult` is the A and F of
`ByteArithmeticAndLogic`. That DEC (IX+d), DEC IXH and DEC IXL have the flags of DEC, by their own Flags lines and against the rule they
refer to, is the model's reading (notes/assumptions/15). -/
def Obligations.IndexArithmetic : Prop :=
  ∀ (s : State) (x : Index),
    (∀ p, exec (x.pick (.addIxRp p) (.addIyRp p)) s = .next
      ({ (s.ran 1 (s.cFetch s.pc :: cIdle (countedIr s.ir) 7)).setF (add16 (s.idx x) (s.rpX x p) s.f).2 with
        wz := s.idx x + 1 }.setIdx x (add16 (s.idx x) (s.rpX x p) s.f).1))
    ∧ exec (x.pick .incIx .incIy) s = .next
      ((s.ran 1 (s.cFetch s.pc :: cIdle (countedIr s.ir) 2)).setIdx x (s.idx x + 1))
    ∧ exec (x.pick .decIx .decIy) s = .next
      ((s.ran 1 (s.cFetch s.pc :: cIdle (countedIr s.ir) 2)).setIdx x (s.idx x - 1))
    ∧ (∀ h, exec (x.pick (.incIxHalf h) (.incIyHalf h)) s = .next
      (((s.ran 1 [s.cFetch s.pc]).setF (incFlags (s.half x h) s.f)).setHalf x h (s.half x h + 1)))
    ∧ (∀ h, exec (x.pick (.decIxHalf h) (.decIyHalf h)) s = .next
      (((s.ran 1 [s.cFetch s.pc]).setF (decFlags (s.half x h) s.f)).setHalf x h (s.half x h - 1)))
    ∧ (∀ o h, exec (x.pick (.aluIxHalf o h) (.aluIyHalf o h)) s = .next
      ((s.ran 1 [s.cFetch s.pc]).setAF (aluResult o s.a s.f (s.half x h))))
    ∧ (∀ d, let ea := s.idx x + sext16 d; let v := s.reply 2 ea
      let u := { s.ran 2 (s.cFetch s.pc :: s.cRead 1 (s.pc + 1) :: cIdle (s.pc + 1) 5 ++ [s.cRead 2 ea]) with wz := ea }
      (∀ o, exec (x.pick (.aluIndIxD o d) (.aluIndIyD o d)) s = .next (u.setAF (aluResult o s.a s.f v)))
      ∧ exec (x.pick (.incIndIxD d) (.incIndIyD d)) s = .next
        { (u.through (cIdle ea 1 ++ [cWrite ea (v + 1)])).setF (incFlags v s.f) with mem := s.mem.write ea.toNat (v + 1) }
      ∧ exec (x.pick (.decIndIxD d) (.decIndIyD d)) s = .next
        { (u.through (cIdle ea 1 ++ [cWrite ea (v - 1)])).setF (decFlags v s.f) with mem := s.mem.write ea.toNat (v - 1) })

/-- The stack and jump rows of the index pages (R583 to R587), for IX and IY. JP (IX) reads no memory. -/
def Obligations.IndexStackAndJumps : Prop :=
  ∀ (s : State) (x : Index), let w := cat (s.reply 2 (s.sp + 1)) (s.reply 1 s.sp)
    exec (x.pick .pushIx .pushIy) s = .next
      { s.ran 1 (s.cFetch s.pc :: cIdle (countedIr s.ir) 1
          ++ [cWrite (s.sp - 1) (hi8 (s.idx x)), cWrite (s.sp - 2) (lo8 (s.idx x))]) with
        sp := s.sp - 2, mem := (s.mem.write (s.sp - 1).toNat (hi8 (s.idx x))).write (s.sp - 2).toNat (lo8 (s.idx x)) }
    ∧ exec (x.pick .popIx .popIy) s = .next
      ({ s.ran 1 [s.cFetch s.pc, s.cRead 1 s.sp, s.cRead 2 (s.sp + 1)] with sp := s.sp + 2 }.setIdx x w)
    ∧ exec (x.pick .exIndSpIx .exIndSpIy) s = .next
      ({ s.ran 1 (s.cFetch s.pc :: s.cRead 1 s.sp :: s.cRead 2 (s.sp + 1) :: cIdle (s.sp + 1) 1
          ++ [cWrite (s.sp + 1) (hi8 (s.idx x)), cWrite s.sp (lo8 (s.idx x))] ++ cIdle s.sp 2) with
        wz := w, mem := (s.mem.write (s.sp + 1).toNat (hi8 (s.idx x))).write s.sp.toNat (lo8 (s.idx x)) }.setIdx x w)
    ∧ exec (x.pick .jpIndIx .jpIndIy) s = .next { s.ran 1 [s.cFetch s.pc] with pc := s.idx x }
    ∧ exec (x.pick .ldSpIx .ldSpIy) s = .next
      { s.ran 1 (s.cFetch s.pc :: cIdle (countedIr s.ir) 2) with sp := s.idx x }

/-! ## DDCB and FDCB pages -/

/-- The rows of the DDCB and FDCB pages (R620 to R627): d and op are plain reads (R does not count), the byte at the effective
address is operated on, WZ becomes the address, and a form with a register code copies the result into the real register.
BIT takes 5 and 3 from the high byte of the address. -/
def Obligations.IndexCbPageRows : Prop :=
  ∀ (s : State) (x : Index) (d : Byte), let ea := s.idx x + sext16 d; let v := s.reply 2 ea
    let u := { s.through (s.cRead 0 s.pc :: s.cRead 1 (s.pc + 1) :: cIdle (s.pc + 1) 2 ++ s.cRead 2 ea :: cIdle ea 1) with
        pc := s.pc + 2, wz := ea }
    let stored := fun w : Byte => { u.through [cWrite ea w] with mem := s.mem.write ea.toNat w }
    (∀ o, let w := rotRes o (bit s.f 0) v
      let t := (stored w).setF (sz53p w ||| (if rotOut o v then 0x01 else 0))
      exec (x.pick (RotOp.onIx o d) (RotOp.onIy o d)) s = .next t
      ∧ ∀ r, exec (x.pick (RotOp.onIxR o d r) (RotOp.onIyR o d r)) s = .next (t.setReg r w))
    ∧ (∀ b z, exec (x.pick (.bitIx d b z) (.bitIy d b z)) s = .next
      (u.setF ((s.f &&& 0x01) ||| 0x10 ||| (hi8 ea &&& 0x28)
        ||| (if bit v b.toNat then (if b = 7 then 0x80 else 0) else 0x44))))
    ∧ (∀ b, let w := v &&& (0xFF ^^^ ((1 : Byte) <<< b.toNat))
      exec (x.pick (.resIx d b) (.resIy d b)) s = .next (stored w)
      ∧ ∀ r, exec (x.pick (.resIxR d b r) (.resIyR d b r)) s = .next ((stored w).setReg r w))
    ∧ (∀ b, let w := v ||| ((1 : Byte) <<< b.toNat)
      exec (x.pick (.setIx d b) (.setIy d b)) s = .next (stored w)
      ∧ ∀ r, exec (x.pick (.setIxR d b r) (.setIyR d b r)) s = .next ((stored w).setReg r w))

/-- The prefix rows (R153, R571, R596): each prefix byte is one M1 fetch and nothing else; an ignored index byte adds nothing
beyond the fetch its own row made. -/
def Obligations.PrefixRows : Prop :=
  ∀ s : State, let u := s.ran 1 [s.cFetch s.pc]
    exec .cbPrefix s = .next u ∧ exec .ddPrefix s = .next u ∧ exec .edPrefix s = .next u ∧ exec .fdPrefix s = .next u
    ∧ exec .ddcbPrefix s = .next u ∧ exec .fdcbPrefix s = .next u
    ∧ exec .edAfterDd s = .next u ∧ exec .edAfterFd s = .next u
    ∧ (∀ x, exec (.rePrefixDd x) s = .next u ∧ exec (.rePrefixFd x) s = .next u)
    ∧ (∀ op, exec (.ddIgnored op) s = .next s ∧ exec (.fdIgnored op) s = .next s)

/-! ## Interrupts, HALT, restart -/

/-- An NMI is accepted first, whatever IM, IFF1 and EI_BLOCK are: IFF2 takes IFF1, IFF1 is cleared, PC (past a HALT) is pushed, PC
and WZ are 0x0066, in 5 + 3 + 3 ticks; IRQ_PEND stays (R653, R656, R657, R660). That the acknowledge sees IR before R counts is
the model's reading (notes/assumptions/8). -/
def Obligations.NmiAcceptance : Prop :=
  ∀ s : State, s.nmiPend = true → let pc := if s.halted then s.pc + 1 else s.pc
    step s = .next
      { s.through [s.cAck 5, cWrite (s.sp - 1) (hi8 pc), cWrite (s.sp - 2) (lo8 pc)] with
        nmiPend := false, eiBlock := false, halted := false, iff2 := s.iff1, iff1 := false
        ir := countedIr s.ir, sp := s.sp - 2, pc := 0x0066, wz := 0x0066
        mem := (s.mem.write (s.sp - 1).toNat (hi8 pc)).write (s.sp - 2).toNat (lo8 pc) }

/-- An IRQ that is pending, enabled and not deferred is accepted when no NMI is: IFF1 and IFF2 are cleared and PC (past a HALT) is
pushed; modes 0 and 1 go to 0x0038 in 13 ticks, mode 2 to the word at cat(I, vector) in 19 (R13, R653, R655, R658 to R660). IR on the bus
is that of before R counts (notes/assumptions/8), the vector a draw, taken before the two reads of the table (notes/assumptions/4). -/
def Obligations.IrqAcceptance : Prop :=
  ∀ s : State, s.nmiPend = false → s.irqPend = true → s.iff1 = true → s.eiBlock = false →
    let pc := if s.halted then s.pc + 1 else s.pc; let tab := cat (hi8 s.ir) (Config.im2Vector s.draws)
    let u := { s.through [s.cAck 7, cWrite (s.sp - 1) (hi8 pc), cWrite (s.sp - 2) (lo8 pc)] with
        irqPend := false, halted := false, iff1 := false, iff2 := false, ir := countedIr s.ir, sp := s.sp - 2
        mem := (s.mem.write (s.sp - 1).toNat (hi8 pc)).write (s.sp - 2).toNat (lo8 pc) }
    (s.im ≠ .im2 → step s = .next { u with pc := 0x0038, wz := 0x0038 })
    ∧ (s.im = .im2 → let v := { u with draws := s.draws + 1 }; step s = .next
      { v.through [v.cRead 0 tab, v.cRead 1 (tab + 1)] with
        pc := cat (v.reply 1 (tab + 1)) (v.reply 0 tab), wz := cat (v.reply 1 (tab + 1)) (v.reply 0 tab) })

/-- After EI the next step cannot accept an IRQ: it executes. Whatever instruction stands there, with its prefixes (RETI among them),
it runs, the request stays pending, and unless it is another EI the deferral is over after it (R335, R654, R655, R707). -/
def Obligations.EiDefersOneInstruction : Prop :=
  ∀ s : State, s.Executes → s.reply 0 s.pc = 0xFB →
    ∃ t, step s = .next t ∧ t.iff1 = true ∧ t.iff2 = true ∧ t.irqPend = s.irqPend ∧ t.Executes
      ∧ (∀ i, i.wellFormed = true → i.selects = none → i ≠ .ei → t.BytesAt t.pc (encodeFull i) →
        ∃ u, step t = .next u ∧ u.irqPend = s.irqPend ∧ u.eiBlock = false)
      ∧ ∀ u, step t = .next u → u.irqPend = s.irqPend
        ∧ (u.eiBlock = false ∨ ∃ k, step t = exec .ei (State.opFetch^[k] { t with eiBlock := false }))

/-- While HALTED with no NMI and IRQs disabled, every step is a halted cycle: a fetch at PC, R counts, EI_BLOCK is cleared, and
nothing else changes; so for any number of steps PC, memory and every register but R are as they were
(R332, R654, R660, R661). -/
def Obligations.HaltWaits : Prop :=
  ∀ (k : Nat) (s : State), s.halted = true → s.nmiPend = false → s.iff1 = false →
    step s = .next { s.through [s.cFetch s.pc] with ir := countedIr s.ir, eiBlock := false }
    ∧ ∃ t, core.run k s = .next t ∧ t.pc = s.pc ∧ t.halted = true ∧ t.irqPend = s.irqPend ∧ t.mem = s.mem
      ∧ (∀ w : WordItem, w ≠ .ir → t.getWord w = s.getWord w)
      ∧ t.r.toNat % 128 = (s.r.toNat + k) % 128 ∧ baseTicks t.bus = baseTicks s.bus + 4 * k

/-- RETN after an NMI acceptance returns to the interrupted address with the IFF1 of before; RETI after an IRQ acceptance in any
mode returns to it with interrupts disabled; on a bus other than plain memory the two bytes popped are its own answers. A second NMI
inside the first loses the IFF1 it saved (R103, R457, R458, R662, R663). -/
def Obligations.ReturnsFromInterrupts : Prop :=
  ∀ (s : State) (y : BitVec 3), let pc := if s.halted then s.pc + 1 else s.pc
    (s.nmiPend = true → ∃ t u, step s = .next t ∧ exec (.retn y) t = .next u
      ∧ (s.agent = .plainMemory → u.pc = pc) ∧ u.sp = s.sp ∧ u.iff1 = s.iff1 ∧ u.iff2 = s.iff1 ∧ u.halted = false)
    ∧ (s.nmiPend = false → s.irqRecognised = true → ∃ t u, step s = .next t ∧ exec .reti t = .next u
      ∧ (s.agent = .plainMemory → u.pc = pc) ∧ u.sp = s.sp ∧ u.iff1 = false ∧ u.iff2 = false ∧ u.halted = false)
    ∧ (s.nmiPend = true → ∃ t u, step s = .next t ∧ step t.nmi = .next u
      ∧ u.iff1 = false ∧ u.iff2 = false ∧ u.pc = 0x0066 ∧ u.sp = s.sp - 4)

/-- A request latch is set by its call and cleared by no step but the one that accepts it: a masked or deferred IRQ stays pending,
also across an NMI acceptance (R652, R655). -/
def Obligations.RequestsStayPending : Prop :=
  ∀ s t : State, step s = .next t →
    (s.irqPend = true → (s.nmiPend = true ∨ s.irqRecognised = false) → t.irqPend = true)
    ∧ (s.irqPend = false → t.irqPend = false) ∧ t.nmiPend = false
    ∧ s.interrupt = { s with irqPend := true } ∧ s.nmi = { s with nmiPend := true }

/-- `restart()` gives every element the value of R80 and R700 and leaves T, memory and the bus alone; the state at construction is
such a state (R701). The registers of `RESET_UNSPEC` are draws in both; that a restart takes one draw for all of them and that
construction is draw 0 are the model's (notes/assumptions/1). -/
def Obligations.RestartValues : Prop :=
  ∀ s : State,
    (∀ t ∈ [s.restart, State.reset],
      t.pc = 0x0000 ∧ t.sp = 0xFFFF ∧ t.af = 0xFFFF ∧ t.ir = 0x0000 ∧ t.iff1 = false ∧ t.iff2 = false ∧ t.im = .im0
        ∧ t.halted = false ∧ t.eiBlock = false ∧ t.nmiPend = false ∧ t.irqPend = false)
    ∧ s.restart.t = s.t ∧ s.restart.mem = s.mem ∧ s.restart.bus = s.bus ∧ s.restart.agent = s.agent
    ∧ s.restart.draws = s.draws + 1
    ∧ ∀ q ∈ [(s.restart, s.draws), (State.reset, 0)], let t := q.1
      ∀ p ∈ [(t.bc, UnspecReg.bc), (t.de, .de), (t.hl, .hl), (t.afAlt, .afAlt), (t.bcAlt, .bcAlt), (t.deAlt, .deAlt),
        (t.hlAlt, .hlAlt), (t.ix, .ix), (t.iy, .iy), (t.wz, .wz)], p.1 = Config.resetUnspec q.2 p.2

/-- The accessors store exactly and reach nothing else: each write is the whole state with that item replaced. A 16-bit item is
replaced whole; an 8-bit item with the other half of its pair kept; a flag with the seven others and A kept; a control bit alone; IM
outside {0, 1, 2} and the request latches are refused. A read answers the item (R51, R58, R60, R79, R703). That halves of SP and PC are
reached like the others is the model's (notes/assumptions/17), and so is that a debug read is one answer of the bus
(notes/assumptions/14). -/
def Obligations.AccessorsStoreExactly : Prop :=
  ∀ s : State,
    (∀ w, [WordItem.af, .bc, .de, .hl, .afAlt, .bcAlt, .deAlt, .hlAlt, .ix, .iy, .sp, .pc, .ir, .wz].map (s.putWord · w)
      = [{ s with af := w }, { s with bc := w }, { s with de := w }, { s with hl := w }, { s with afAlt := w },
        { s with bcAlt := w }, { s with deAlt := w }, { s with hlAlt := w }, { s with ix := w }, { s with iy := w },
        { s with sp := w }, { s with pc := w }, { s with ir := w }, { s with wz := w }])
    ∧ [WordItem.af, .bc, .de, .hl, .afAlt, .bcAlt, .deAlt, .hlAlt, .ix, .iy, .sp, .pc, .ir, .wz].map s.getWord
      = [s.af, s.bc, s.de, s.hl, s.afAlt, s.bcAlt, s.deAlt, s.hlAlt, s.ix, s.iy, s.sp, s.pc, s.ir, s.wz]
    ∧ (∀ k w k', (s.putWord k w).getWord k' = if k' = k then w else s.getWord k')
    ∧ (∀ k v, s.putByte ⟨k, .high⟩ v = s.putWord k (cat v (lo8 (s.getWord k)))
      ∧ s.putByte ⟨k, .low⟩ v = s.putWord k (cat (hi8 (s.getWord k)) v)
      ∧ s.getByte ⟨k, .high⟩ = hi8 (s.getWord k) ∧ s.getByte ⟨k, .low⟩ = lo8 (s.getWord k))
    ∧ (∀ k b, ∃ f, s.putFlag k b = { s with af := cat s.a f }
      ∧ ∀ n < 8, bit f n = if n = k.index then b else bit s.f n)
    ∧ [FlagItem.c, .n, .pv, .x3, .h, .x5, .z, .s].map FlagItem.index = List.range 8
    ∧ (∀ k, s.getFlag k = bit s.f k.index)
    ∧ (∀ b, [BitItem.iff1, .iff2, .halted, .eiBlock].map (s.putBit · b)
      = [{ s with iff1 := b }, { s with iff2 := b }, { s with halted := b }, { s with eiBlock := b }])
    ∧ [BitItem.iff1, .iff2, .halted, .eiBlock].map s.getBit = [s.iff1, s.iff2, s.halted, s.eiBlock]
    ∧ (∀ n, (∀ m ∈ [(0, IntMode.im0), (1, .im1), (2, .im2)], n = m.1 →
          s.putIm n = .next { s with im := m.2 } ∧ (s.im = m.2 → s.getIm = n))
      ∧ (2 < n → s.putIm n = .refused .interruptModeOutOfRange))
    ∧ (∀ k w, hostOp (.putWord k w) s = .next (s.putWord k w)) ∧ (∀ k v, hostOp (.putByte k v) s = .next (s.putByte k v))
    ∧ (∀ k b, hostOp (.putFlag k b) s = .next (s.putFlag k b)) ∧ (∀ k b, hostOp (.putBit k b) s = .next (s.putBit k b))
    ∧ (∀ n, hostOp (.putIm n) s = s.putIm n) ∧ (∀ n, hostOp (.putTicks n) s = .next { s with t := n })
    ∧ (∀ l b, hostOp (.putLatch l b) s = .refused .latchHasNoAccessor)
    ∧ s.isHalted = s.halted
    ∧ ∀ a, s.peek a = s.reply 0 a ∧ hostOp (.peek a) s = .next { s with draws := s.draws + 1 }
end

