-- ==== Sys2Proof/Laws/Bits.lean ====
section
/-! SUPPORT. The halves of a word: taking a word apart and putting it together (spec/00_scope.md R22, spec/10_state.md R51). -/

namespace Sys2Proof

@[simp] theorem hi8_cat (h l : Byte) : hi8 (cat h l) = h := by
  simp only [hi8, cat]
  exact BitVec.extractLsb'_append_eq_left

@[simp] theorem lo8_cat (h l : Byte) : lo8 (cat h l) = l := by
  simp only [lo8, cat]
  exact BitVec.extractLsb'_append_eq_right

@[simp] theorem cat_hi8_lo8 (w : Word) : cat (hi8 w) (lo8 w) = w := by
  apply BitVec.eq_of_getLsbD_eq
  intro i hi
  simp only [cat, hi8, lo8, BitVec.getLsbD_append, BitVec.getLsbD_extractLsb']
  by_cases h : i < 8
  · simp [h]
  · simp [h, show i - 8 < 8 by omega, show 8 + (i - 8) = i by omega]

/-- A word is its two halves. -/
theorem word_ext {w v : Word} (hh : hi8 w = hi8 v) (hl : lo8 w = lo8 v) : w = v := by
  rw [← cat_hi8_lo8 w, ← cat_hi8_lo8 v, hh, hl]

namespace Machine

@[simp] theorem hi8_withHi (w : Word) (v : Byte) : hi8 (withHi w v) = v := hi8_cat _ _
@[simp] theorem lo8_withHi (w : Word) (v : Byte) : lo8 (withHi w v) = lo8 w := lo8_cat _ _
@[simp] theorem hi8_withLo (w : Word) (v : Byte) : hi8 (withLo w v) = hi8 w := hi8_cat _ _
@[simp] theorem lo8_withLo (w : Word) (v : Byte) : lo8 (withLo w v) = v := lo8_cat _ _

@[simp] theorem withHi_withHi (w : Word) (u v : Byte) : withHi (withHi w u) v = withHi w v := by simp [withHi]
@[simp] theorem withLo_withLo (w : Word) (u v : Byte) : withLo (withLo w u) v = withLo w v := by simp [withLo]
@[simp] theorem withHi_self (w : Word) : withHi w (hi8 w) = w := cat_hi8_lo8 w
@[simp] theorem withLo_self (w : Word) : withLo w (lo8 w) = w := cat_hi8_lo8 w
@[simp] theorem withLo_withHi (w : Word) (u v : Byte) : withLo (withHi w u) v = cat u v := by simp [withLo]
@[simp] theorem withHi_withLo (w : Word) (u v : Byte) : withHi (withLo w u) v = cat v u := by simp [withHi]
@[simp] theorem withHi_cat (h l v : Byte) : withHi (cat h l) v = cat v l := by simp [withHi]
@[simp] theorem withLo_cat (h l v : Byte) : withLo (cat h l) v = cat h v := by simp [withLo]

end Machine
end Sys2Proof
end

