-- ==== Sys2Proof/Laws/State.lean ====
section
/-! SUPPORT. What each named update of `State` does to each field: one lemma per field, so that no later proof unfolds a
record update. -/

namespace Sys2Proof.Machine

/-! ### transact -/

@[simp] theorem State.transact_af (s : State) (k : BusKind) (a : Word) (n : Nat) (v : Option Byte) : (s.transact k a n v).af = s.af := rfl
@[simp] theorem State.transact_bc (s : State) (k : BusKind) (a : Word) (n : Nat) (v : Option Byte) : (s.transact k a n v).bc = s.bc := rfl
@[simp] theorem State.transact_de (s : State) (k : BusKind) (a : Word) (n : Nat) (v : Option Byte) : (s.transact k a n v).de = s.de := rfl
@[simp] theorem State.transact_hl (s : State) (k : BusKind) (a : Word) (n : Nat) (v : Option Byte) : (s.transact k a n v).hl = s.hl := rfl
@[simp] theorem State.transact_afAlt (s : State) (k : BusKind) (a : Word) (n : Nat) (v : Option Byte) : (s.transact k a n v).afAlt = s.afAlt := rfl
@[simp] theorem State.transact_bcAlt (s : State) (k : BusKind) (a : Word) (n : Nat) (v : Option Byte) : (s.transact k a n v).bcAlt = s.bcAlt := rfl
@[simp] theorem State.transact_deAlt (s : State) (k : BusKind) (a : Word) (n : Nat) (v : Option Byte) : (s.transact k a n v).deAlt = s.deAlt := rfl
@[simp] theorem State.transact_hlAlt (s : State) (k : BusKind) (a : Word) (n : Nat) (v : Option Byte) : (s.transact k a n v).hlAlt = s.hlAlt := rfl
@[simp] theorem State.transact_ix (s : State) (k : BusKind) (a : Word) (n : Nat) (v : Option Byte) : (s.transact k a n v).ix = s.ix := rfl
@[simp] theorem State.transact_iy (s : State) (k : BusKind) (a : Word) (n : Nat) (v : Option Byte) : (s.transact k a n v).iy = s.iy := rfl
@[simp] theorem State.transact_sp (s : State) (k : BusKind) (a : Word) (n : Nat) (v : Option Byte) : (s.transact k a n v).sp = s.sp := rfl
@[simp] theorem State.transact_pc (s : State) (k : BusKind) (a : Word) (n : Nat) (v : Option Byte) : (s.transact k a n v).pc = s.pc := rfl
@[simp] theorem State.transact_ir (s : State) (k : BusKind) (a : Word) (n : Nat) (v : Option Byte) : (s.transact k a n v).ir = s.ir := rfl
@[simp] theorem State.transact_wz (s : State) (k : BusKind) (a : Word) (n : Nat) (v : Option Byte) : (s.transact k a n v).wz = s.wz := rfl
@[simp] theorem State.transact_iff1 (s : State) (k : BusKind) (a : Word) (n : Nat) (v : Option Byte) : (s.transact k a n v).iff1 = s.iff1 := rfl
@[simp] theorem State.transact_iff2 (s : State) (k : BusKind) (a : Word) (n : Nat) (v : Option Byte) : (s.transact k a n v).iff2 = s.iff2 := rfl
@[simp] theorem State.transact_im (s : State) (k : BusKind) (a : Word) (n : Nat) (v : Option Byte) : (s.transact k a n v).im = s.im := rfl
@[simp] theorem State.transact_halted (s : State) (k : BusKind) (a : Word) (n : Nat) (v : Option Byte) : (s.transact k a n v).halted = s.halted := rfl
@[simp] theorem State.transact_eiBlock (s : State) (k : BusKind) (a : Word) (n : Nat) (v : Option Byte) : (s.transact k a n v).eiBlock = s.eiBlock := rfl
@[simp] theorem State.transact_nmiPend (s : State) (k : BusKind) (a : Word) (n : Nat) (v : Option Byte) : (s.transact k a n v).nmiPend = s.nmiPend := rfl
@[simp] theorem State.transact_irqPend (s : State) (k : BusKind) (a : Word) (n : Nat) (v : Option Byte) : (s.transact k a n v).irqPend = s.irqPend := rfl
@[simp] theorem State.transact_mem (s : State) (k : BusKind) (a : Word) (n : Nat) (v : Option Byte) : (s.transact k a n v).mem = s.mem := rfl
@[simp] theorem State.transact_agent (s : State) (k : BusKind) (a : Word) (n : Nat) (v : Option Byte) : (s.transact k a n v).agent = s.agent := rfl
@[simp] theorem State.transact_draws (s : State) (k : BusKind) (a : Word) (n : Nat) (v : Option Byte) : (s.transact k a n v).draws = s.draws + answersOf k := rfl

/-! ### refresh -/

@[simp] theorem State.refresh_af (s : State) : (s.refresh).af = s.af := rfl
@[simp] theorem State.refresh_bc (s : State) : (s.refresh).bc = s.bc := rfl
@[simp] theorem State.refresh_de (s : State) : (s.refresh).de = s.de := rfl
@[simp] theorem State.refresh_hl (s : State) : (s.refresh).hl = s.hl := rfl
@[simp] theorem State.refresh_afAlt (s : State) : (s.refresh).afAlt = s.afAlt := rfl
@[simp] theorem State.refresh_bcAlt (s : State) : (s.refresh).bcAlt = s.bcAlt := rfl
@[simp] theorem State.refresh_deAlt (s : State) : (s.refresh).deAlt = s.deAlt := rfl
@[simp] theorem State.refresh_hlAlt (s : State) : (s.refresh).hlAlt = s.hlAlt := rfl
@[simp] theorem State.refresh_ix (s : State) : (s.refresh).ix = s.ix := rfl
@[simp] theorem State.refresh_iy (s : State) : (s.refresh).iy = s.iy := rfl
@[simp] theorem State.refresh_sp (s : State) : (s.refresh).sp = s.sp := rfl
@[simp] theorem State.refresh_pc (s : State) : (s.refresh).pc = s.pc := rfl
@[simp] theorem State.refresh_ir (s : State) : (s.refresh).ir = withLo s.ir (nextR (lo8 s.ir)) := rfl
@[simp] theorem State.refresh_wz (s : State) : (s.refresh).wz = s.wz := rfl
@[simp] theorem State.refresh_iff1 (s : State) : (s.refresh).iff1 = s.iff1 := rfl
@[simp] theorem State.refresh_iff2 (s : State) : (s.refresh).iff2 = s.iff2 := rfl
@[simp] theorem State.refresh_im (s : State) : (s.refresh).im = s.im := rfl
@[simp] theorem State.refresh_halted (s : State) : (s.refresh).halted = s.halted := rfl
@[simp] theorem State.refresh_eiBlock (s : State) : (s.refresh).eiBlock = s.eiBlock := rfl
@[simp] theorem State.refresh_nmiPend (s : State) : (s.refresh).nmiPend = s.nmiPend := rfl
@[simp] theorem State.refresh_irqPend (s : State) : (s.refresh).irqPend = s.irqPend := rfl
@[simp] theorem State.refresh_t (s : State) : (s.refresh).t = s.t := rfl
@[simp] theorem State.refresh_mem (s : State) : (s.refresh).mem = s.mem := rfl
@[simp] theorem State.refresh_agent (s : State) : (s.refresh).agent = s.agent := rfl
@[simp] theorem State.refresh_bus (s : State) : (s.refresh).bus = s.bus := rfl
@[simp] theorem State.refresh_draws (s : State) : (s.refresh).draws = s.draws := rfl

/-! ### fetchAt -/

@[simp] theorem State.fetchAt_af (s : State) (a : Word) : (s.fetchAt a).af = s.af := rfl
@[simp] theorem State.fetchAt_bc (s : State) (a : Word) : (s.fetchAt a).bc = s.bc := rfl
@[simp] theorem State.fetchAt_de (s : State) (a : Word) : (s.fetchAt a).de = s.de := rfl
@[simp] theorem State.fetchAt_hl (s : State) (a : Word) : (s.fetchAt a).hl = s.hl := rfl
@[simp] theorem State.fetchAt_afAlt (s : State) (a : Word) : (s.fetchAt a).afAlt = s.afAlt := rfl
@[simp] theorem State.fetchAt_bcAlt (s : State) (a : Word) : (s.fetchAt a).bcAlt = s.bcAlt := rfl
@[simp] theorem State.fetchAt_deAlt (s : State) (a : Word) : (s.fetchAt a).deAlt = s.deAlt := rfl
@[simp] theorem State.fetchAt_hlAlt (s : State) (a : Word) : (s.fetchAt a).hlAlt = s.hlAlt := rfl
@[simp] theorem State.fetchAt_ix (s : State) (a : Word) : (s.fetchAt a).ix = s.ix := rfl
@[simp] theorem State.fetchAt_iy (s : State) (a : Word) : (s.fetchAt a).iy = s.iy := rfl
@[simp] theorem State.fetchAt_sp (s : State) (a : Word) : (s.fetchAt a).sp = s.sp := rfl
@[simp] theorem State.fetchAt_pc (s : State) (a : Word) : (s.fetchAt a).pc = s.pc := rfl
@[simp] theorem State.fetchAt_ir (s : State) (a : Word) : (s.fetchAt a).ir = withLo s.ir (nextR (lo8 s.ir)) := rfl
@[simp] theorem State.fetchAt_wz (s : State) (a : Word) : (s.fetchAt a).wz = s.wz := rfl
@[simp] theorem State.fetchAt_iff1 (s : State) (a : Word) : (s.fetchAt a).iff1 = s.iff1 := rfl
@[simp] theorem State.fetchAt_iff2 (s : State) (a : Word) : (s.fetchAt a).iff2 = s.iff2 := rfl
@[simp] theorem State.fetchAt_im (s : State) (a : Word) : (s.fetchAt a).im = s.im := rfl
@[simp] theorem State.fetchAt_halted (s : State) (a : Word) : (s.fetchAt a).halted = s.halted := rfl
@[simp] theorem State.fetchAt_eiBlock (s : State) (a : Word) : (s.fetchAt a).eiBlock = s.eiBlock := rfl
@[simp] theorem State.fetchAt_nmiPend (s : State) (a : Word) : (s.fetchAt a).nmiPend = s.nmiPend := rfl
@[simp] theorem State.fetchAt_irqPend (s : State) (a : Word) : (s.fetchAt a).irqPend = s.irqPend := rfl
@[simp] theorem State.fetchAt_mem (s : State) (a : Word) : (s.fetchAt a).mem = s.mem := rfl
@[simp] theorem State.fetchAt_agent (s : State) (a : Word) : (s.fetchAt a).agent = s.agent := rfl
@[simp] theorem State.fetchAt_draws (s : State) (a : Word) : (s.fetchAt a).draws = s.draws + 1 := rfl

/-! ### readAt -/

@[simp] theorem State.readAt_af (s : State) (a : Word) : (s.readAt a).af = s.af := rfl
@[simp] theorem State.readAt_bc (s : State) (a : Word) : (s.readAt a).bc = s.bc := rfl
@[simp] theorem State.readAt_de (s : State) (a : Word) : (s.readAt a).de = s.de := rfl
@[simp] theorem State.readAt_hl (s : State) (a : Word) : (s.readAt a).hl = s.hl := rfl
@[simp] theorem State.readAt_afAlt (s : State) (a : Word) : (s.readAt a).afAlt = s.afAlt := rfl
@[simp] theorem State.readAt_bcAlt (s : State) (a : Word) : (s.readAt a).bcAlt = s.bcAlt := rfl
@[simp] theorem State.readAt_deAlt (s : State) (a : Word) : (s.readAt a).deAlt = s.deAlt := rfl
@[simp] theorem State.readAt_hlAlt (s : State) (a : Word) : (s.readAt a).hlAlt = s.hlAlt := rfl
@[simp] theorem State.readAt_ix (s : State) (a : Word) : (s.readAt a).ix = s.ix := rfl
@[simp] theorem State.readAt_iy (s : State) (a : Word) : (s.readAt a).iy = s.iy := rfl
@[simp] theorem State.readAt_sp (s : State) (a : Word) : (s.readAt a).sp = s.sp := rfl
@[simp] theorem State.readAt_pc (s : State) (a : Word) : (s.readAt a).pc = s.pc := rfl
@[simp] theorem State.readAt_ir (s : State) (a : Word) : (s.readAt a).ir = s.ir := rfl
@[simp] theorem State.readAt_wz (s : State) (a : Word) : (s.readAt a).wz = s.wz := rfl
@[simp] theorem State.readAt_iff1 (s : State) (a : Word) : (s.readAt a).iff1 = s.iff1 := rfl
@[simp] theorem State.readAt_iff2 (s : State) (a : Word) : (s.readAt a).iff2 = s.iff2 := rfl
@[simp] theorem State.readAt_im (s : State) (a : Word) : (s.readAt a).im = s.im := rfl
@[simp] theorem State.readAt_halted (s : State) (a : Word) : (s.readAt a).halted = s.halted := rfl
@[simp] theorem State.readAt_eiBlock (s : State) (a : Word) : (s.readAt a).eiBlock = s.eiBlock := rfl
@[simp] theorem State.readAt_nmiPend (s : State) (a : Word) : (s.readAt a).nmiPend = s.nmiPend := rfl
@[simp] theorem State.readAt_irqPend (s : State) (a : Word) : (s.readAt a).irqPend = s.irqPend := rfl
@[simp] theorem State.readAt_mem (s : State) (a : Word) : (s.readAt a).mem = s.mem := rfl
@[simp] theorem State.readAt_agent (s : State) (a : Word) : (s.readAt a).agent = s.agent := rfl
@[simp] theorem State.readAt_draws (s : State) (a : Word) : (s.readAt a).draws = s.draws + 1 := rfl

/-! ### writeAt -/

@[simp] theorem State.writeAt_af (s : State) (a : Word) (v : Byte) : (s.writeAt a v).af = s.af := rfl
@[simp] theorem State.writeAt_bc (s : State) (a : Word) (v : Byte) : (s.writeAt a v).bc = s.bc := rfl
@[simp] theorem State.writeAt_de (s : State) (a : Word) (v : Byte) : (s.writeAt a v).de = s.de := rfl
@[simp] theorem State.writeAt_hl (s : State) (a : Word) (v : Byte) : (s.writeAt a v).hl = s.hl := rfl
@[simp] theorem State.writeAt_afAlt (s : State) (a : Word) (v : Byte) : (s.writeAt a v).afAlt = s.afAlt := rfl
@[simp] theorem State.writeAt_bcAlt (s : State) (a : Word) (v : Byte) : (s.writeAt a v).bcAlt = s.bcAlt := rfl
@[simp] theorem State.writeAt_deAlt (s : State) (a : Word) (v : Byte) : (s.writeAt a v).deAlt = s.deAlt := rfl
@[simp] theorem State.writeAt_hlAlt (s : State) (a : Word) (v : Byte) : (s.writeAt a v).hlAlt = s.hlAlt := rfl
@[simp] theorem State.writeAt_ix (s : State) (a : Word) (v : Byte) : (s.writeAt a v).ix = s.ix := rfl
@[simp] theorem State.writeAt_iy (s : State) (a : Word) (v : Byte) : (s.writeAt a v).iy = s.iy := rfl
@[simp] theorem State.writeAt_sp (s : State) (a : Word) (v : Byte) : (s.writeAt a v).sp = s.sp := rfl
@[simp] theorem State.writeAt_pc (s : State) (a : Word) (v : Byte) : (s.writeAt a v).pc = s.pc := rfl
@[simp] theorem State.writeAt_ir (s : State) (a : Word) (v : Byte) : (s.writeAt a v).ir = s.ir := rfl
@[simp] theorem State.writeAt_wz (s : State) (a : Word) (v : Byte) : (s.writeAt a v).wz = s.wz := rfl
@[simp] theorem State.writeAt_iff1 (s : State) (a : Word) (v : Byte) : (s.writeAt a v).iff1 = s.iff1 := rfl
@[simp] theorem State.writeAt_iff2 (s : State) (a : Word) (v : Byte) : (s.writeAt a v).iff2 = s.iff2 := rfl
@[simp] theorem State.writeAt_im (s : State) (a : Word) (v : Byte) : (s.writeAt a v).im = s.im := rfl
@[simp] theorem State.writeAt_halted (s : State) (a : Word) (v : Byte) : (s.writeAt a v).halted = s.halted := rfl
@[simp] theorem State.writeAt_eiBlock (s : State) (a : Word) (v : Byte) : (s.writeAt a v).eiBlock = s.eiBlock := rfl
@[simp] theorem State.writeAt_nmiPend (s : State) (a : Word) (v : Byte) : (s.writeAt a v).nmiPend = s.nmiPend := rfl
@[simp] theorem State.writeAt_irqPend (s : State) (a : Word) (v : Byte) : (s.writeAt a v).irqPend = s.irqPend := rfl
@[simp] theorem State.writeAt_mem (s : State) (a : Word) (v : Byte) : (s.writeAt a v).mem = s.mem.write a.toNat v := rfl
@[simp] theorem State.writeAt_agent (s : State) (a : Word) (v : Byte) : (s.writeAt a v).agent = s.agent := rfl
@[simp] theorem State.writeAt_draws (s : State) (a : Word) (v : Byte) : (s.writeAt a v).draws = s.draws := rfl

/-! ### opFetch -/

@[simp] theorem State.opFetch_af (s : State) : (s.opFetch).af = s.af := rfl
@[simp] theorem State.opFetch_bc (s : State) : (s.opFetch).bc = s.bc := rfl
@[simp] theorem State.opFetch_de (s : State) : (s.opFetch).de = s.de := rfl
@[simp] theorem State.opFetch_hl (s : State) : (s.opFetch).hl = s.hl := rfl
@[simp] theorem State.opFetch_afAlt (s : State) : (s.opFetch).afAlt = s.afAlt := rfl
@[simp] theorem State.opFetch_bcAlt (s : State) : (s.opFetch).bcAlt = s.bcAlt := rfl
@[simp] theorem State.opFetch_deAlt (s : State) : (s.opFetch).deAlt = s.deAlt := rfl
@[simp] theorem State.opFetch_hlAlt (s : State) : (s.opFetch).hlAlt = s.hlAlt := rfl
@[simp] theorem State.opFetch_ix (s : State) : (s.opFetch).ix = s.ix := rfl
@[simp] theorem State.opFetch_iy (s : State) : (s.opFetch).iy = s.iy := rfl
@[simp] theorem State.opFetch_sp (s : State) : (s.opFetch).sp = s.sp := rfl
@[simp] theorem State.opFetch_pc (s : State) : (s.opFetch).pc = s.pc + 1 := rfl
@[simp] theorem State.opFetch_ir (s : State) : (s.opFetch).ir = withLo s.ir (nextR (lo8 s.ir)) := rfl
@[simp] theorem State.opFetch_wz (s : State) : (s.opFetch).wz = s.wz := rfl
@[simp] theorem State.opFetch_iff1 (s : State) : (s.opFetch).iff1 = s.iff1 := rfl
@[simp] theorem State.opFetch_iff2 (s : State) : (s.opFetch).iff2 = s.iff2 := rfl
@[simp] theorem State.opFetch_im (s : State) : (s.opFetch).im = s.im := rfl
@[simp] theorem State.opFetch_halted (s : State) : (s.opFetch).halted = s.halted := rfl
@[simp] theorem State.opFetch_eiBlock (s : State) : (s.opFetch).eiBlock = s.eiBlock := rfl
@[simp] theorem State.opFetch_nmiPend (s : State) : (s.opFetch).nmiPend = s.nmiPend := rfl
@[simp] theorem State.opFetch_irqPend (s : State) : (s.opFetch).irqPend = s.irqPend := rfl
@[simp] theorem State.opFetch_mem (s : State) : (s.opFetch).mem = s.mem := rfl
@[simp] theorem State.opFetch_agent (s : State) : (s.opFetch).agent = s.agent := rfl
@[simp] theorem State.opFetch_draws (s : State) : (s.opFetch).draws = s.draws + 1 := rfl

/-! ### operand -/

@[simp] theorem State.operand_af (s : State) : (s.operand).af = s.af := rfl
@[simp] theorem State.operand_bc (s : State) : (s.operand).bc = s.bc := rfl
@[simp] theorem State.operand_de (s : State) : (s.operand).de = s.de := rfl
@[simp] theorem State.operand_hl (s : State) : (s.operand).hl = s.hl := rfl
@[simp] theorem State.operand_afAlt (s : State) : (s.operand).afAlt = s.afAlt := rfl
@[simp] theorem State.operand_bcAlt (s : State) : (s.operand).bcAlt = s.bcAlt := rfl
@[simp] theorem State.operand_deAlt (s : State) : (s.operand).deAlt = s.deAlt := rfl
@[simp] theorem State.operand_hlAlt (s : State) : (s.operand).hlAlt = s.hlAlt := rfl
@[simp] theorem State.operand_ix (s : State) : (s.operand).ix = s.ix := rfl
@[simp] theorem State.operand_iy (s : State) : (s.operand).iy = s.iy := rfl
@[simp] theorem State.operand_sp (s : State) : (s.operand).sp = s.sp := rfl
@[simp] theorem State.operand_pc (s : State) : (s.operand).pc = s.pc + 1 := rfl
@[simp] theorem State.operand_ir (s : State) : (s.operand).ir = s.ir := rfl
@[simp] theorem State.operand_wz (s : State) : (s.operand).wz = s.wz := rfl
@[simp] theorem State.operand_iff1 (s : State) : (s.operand).iff1 = s.iff1 := rfl
@[simp] theorem State.operand_iff2 (s : State) : (s.operand).iff2 = s.iff2 := rfl
@[simp] theorem State.operand_im (s : State) : (s.operand).im = s.im := rfl
@[simp] theorem State.operand_halted (s : State) : (s.operand).halted = s.halted := rfl
@[simp] theorem State.operand_eiBlock (s : State) : (s.operand).eiBlock = s.eiBlock := rfl
@[simp] theorem State.operand_nmiPend (s : State) : (s.operand).nmiPend = s.nmiPend := rfl
@[simp] theorem State.operand_irqPend (s : State) : (s.operand).irqPend = s.irqPend := rfl
@[simp] theorem State.operand_mem (s : State) : (s.operand).mem = s.mem := rfl
@[simp] theorem State.operand_agent (s : State) : (s.operand).agent = s.agent := rfl
@[simp] theorem State.operand_draws (s : State) : (s.operand).draws = s.draws + 1 := rfl

/-! ### internal -/

@[simp] theorem State.internal_af (s : State) (a : Word) (n : Nat) : (s.internal a n).af = s.af := by
  induction n generalizing s with
  | zero => rfl
  | succ n ih => exact ih _
@[simp] theorem State.internal_bc (s : State) (a : Word) (n : Nat) : (s.internal a n).bc = s.bc := by
  induction n generalizing s with
  | zero => rfl
  | succ n ih => exact ih _
@[simp] theorem State.internal_de (s : State) (a : Word) (n : Nat) : (s.internal a n).de = s.de := by
  induction n generalizing s with
  | zero => rfl
  | succ n ih => exact ih _
@[simp] theorem State.internal_hl (s : State) (a : Word) (n : Nat) : (s.internal a n).hl = s.hl := by
  induction n generalizing s with
  | zero => rfl
  | succ n ih => exact ih _
@[simp] theorem State.internal_afAlt (s : State) (a : Word) (n : Nat) : (s.internal a n).afAlt = s.afAlt := by
  induction n generalizing s with
  | zero => rfl
  | succ n ih => exact ih _
@[simp] theorem State.internal_bcAlt (s : State) (a : Word) (n : Nat) : (s.internal a n).bcAlt = s.bcAlt := by
  induction n generalizing s with
  | zero => rfl
  | succ n ih => exact ih _
@[simp] theorem State.internal_deAlt (s : State) (a : Word) (n : Nat) : (s.internal a n).deAlt = s.deAlt := by
  induction n generalizing s with
  | zero => rfl
  | succ n ih => exact ih _
@[simp] theorem State.internal_hlAlt (s : State) (a : Word) (n : Nat) : (s.internal a n).hlAlt = s.hlAlt := by
  induction n generalizing s with
  | zero => rfl
  | succ n ih => exact ih _
@[simp] theorem State.internal_ix (s : State) (a : Word) (n : Nat) : (s.internal a n).ix = s.ix := by
  induction n generalizing s with
  | zero => rfl
  | succ n ih => exact ih _
@[simp] theorem State.internal_iy (s : State) (a : Word) (n : Nat) : (s.internal a n).iy = s.iy := by
  induction n generalizing s with
  | zero => rfl
  | succ n ih => exact ih _
@[simp] theorem State.internal_sp (s : State) (a : Word) (n : Nat) : (s.internal a n).sp = s.sp := by
  induction n generalizing s with
  | zero => rfl
  | succ n ih => exact ih _
@[simp] theorem State.internal_pc (s : State) (a : Word) (n : Nat) : (s.internal a n).pc = s.pc := by
  induction n generalizing s with
  | zero => rfl
  | succ n ih => exact ih _
@[simp] theorem State.internal_ir (s : State) (a : Word) (n : Nat) : (s.internal a n).ir = s.ir := by
  induction n generalizing s with
  | zero => rfl
  | succ n ih => exact ih _
@[simp] theorem State.internal_wz (s : State) (a : Word) (n : Nat) : (s.internal a n).wz = s.wz := by
  induction n generalizing s with
  | zero => rfl
  | succ n ih => exact ih _
@[simp] theorem State.internal_iff1 (s : State) (a : Word) (n : Nat) : (s.internal a n).iff1 = s.iff1 := by
  induction n generalizing s with
  | zero => rfl
  | succ n ih => exact ih _
@[simp] theorem State.internal_iff2 (s : State) (a : Word) (n : Nat) : (s.internal a n).iff2 = s.iff2 := by
  induction n generalizing s with
  | zero => rfl
  | succ n ih => exact ih _
@[simp] theorem State.internal_im (s : State) (a : Word) (n : Nat) : (s.internal a n).im = s.im := by
  induction n generalizing s with
  | zero => rfl
  | succ n ih => exact ih _
@[simp] theorem State.internal_halted (s : State) (a : Word) (n : Nat) : (s.internal a n).halted = s.halted := by
  induction n generalizing s with
  | zero => rfl
  | succ n ih => exact ih _
@[simp] theorem State.internal_eiBlock (s : State) (a : Word) (n : Nat) : (s.internal a n).eiBlock = s.eiBlock := by
  induction n generalizing s with
  | zero => rfl
  | succ n ih => exact ih _
@[simp] theorem State.internal_nmiPend (s : State) (a : Word) (n : Nat) : (s.internal a n).nmiPend = s.nmiPend := by
  induction n generalizing s with
  | zero => rfl
  | succ n ih => exact ih _
@[simp] theorem State.internal_irqPend (s : State) (a : Word) (n : Nat) : (s.internal a n).irqPend = s.irqPend := by
  induction n generalizing s with
  | zero => rfl
  | succ n ih => exact ih _
@[simp] theorem State.internal_mem (s : State) (a : Word) (n : Nat) : (s.internal a n).mem = s.mem := by
  induction n generalizing s with
  | zero => rfl
  | succ n ih => exact ih _
@[simp] theorem State.internal_agent (s : State) (a : Word) (n : Nat) : (s.internal a n).agent = s.agent := by
  induction n generalizing s with
  | zero => rfl
  | succ n ih => exact ih _
@[simp] theorem State.internal_draws (s : State) (a : Word) (n : Nat) : (s.internal a n).draws = s.draws := by
  induction n generalizing s with
  | zero => rfl
  | succ n ih => exact ih _

/-! ### ioReadAt -/

@[simp] theorem State.ioReadAt_af (s : State) (p : Word) : (s.ioReadAt p).af = s.af := rfl
@[simp] theorem State.ioReadAt_bc (s : State) (p : Word) : (s.ioReadAt p).bc = s.bc := rfl
@[simp] theorem State.ioReadAt_de (s : State) (p : Word) : (s.ioReadAt p).de = s.de := rfl
@[simp] theorem State.ioReadAt_hl (s : State) (p : Word) : (s.ioReadAt p).hl = s.hl := rfl
@[simp] theorem State.ioReadAt_afAlt (s : State) (p : Word) : (s.ioReadAt p).afAlt = s.afAlt := rfl
@[simp] theorem State.ioReadAt_bcAlt (s : State) (p : Word) : (s.ioReadAt p).bcAlt = s.bcAlt := rfl
@[simp] theorem State.ioReadAt_deAlt (s : State) (p : Word) : (s.ioReadAt p).deAlt = s.deAlt := rfl
@[simp] theorem State.ioReadAt_hlAlt (s : State) (p : Word) : (s.ioReadAt p).hlAlt = s.hlAlt := rfl
@[simp] theorem State.ioReadAt_ix (s : State) (p : Word) : (s.ioReadAt p).ix = s.ix := rfl
@[simp] theorem State.ioReadAt_iy (s : State) (p : Word) : (s.ioReadAt p).iy = s.iy := rfl
@[simp] theorem State.ioReadAt_sp (s : State) (p : Word) : (s.ioReadAt p).sp = s.sp := rfl
@[simp] theorem State.ioReadAt_pc (s : State) (p : Word) : (s.ioReadAt p).pc = s.pc := rfl
@[simp] theorem State.ioReadAt_ir (s : State) (p : Word) : (s.ioReadAt p).ir = s.ir := rfl
@[simp] theorem State.ioReadAt_wz (s : State) (p : Word) : (s.ioReadAt p).wz = s.wz := rfl
@[simp] theorem State.ioReadAt_iff1 (s : State) (p : Word) : (s.ioReadAt p).iff1 = s.iff1 := rfl
@[simp] theorem State.ioReadAt_iff2 (s : State) (p : Word) : (s.ioReadAt p).iff2 = s.iff2 := rfl
@[simp] theorem State.ioReadAt_im (s : State) (p : Word) : (s.ioReadAt p).im = s.im := rfl
@[simp] theorem State.ioReadAt_halted (s : State) (p : Word) : (s.ioReadAt p).halted = s.halted := rfl
@[simp] theorem State.ioReadAt_eiBlock (s : State) (p : Word) : (s.ioReadAt p).eiBlock = s.eiBlock := rfl
@[simp] theorem State.ioReadAt_nmiPend (s : State) (p : Word) : (s.ioReadAt p).nmiPend = s.nmiPend := rfl
@[simp] theorem State.ioReadAt_irqPend (s : State) (p : Word) : (s.ioReadAt p).irqPend = s.irqPend := rfl
@[simp] theorem State.ioReadAt_mem (s : State) (p : Word) : (s.ioReadAt p).mem = s.mem := rfl
@[simp] theorem State.ioReadAt_agent (s : State) (p : Word) : (s.ioReadAt p).agent = s.agent := rfl
@[simp] theorem State.ioReadAt_draws (s : State) (p : Word) : (s.ioReadAt p).draws = s.draws + 1 := rfl

/-! ### ioWriteAt -/

@[simp] theorem State.ioWriteAt_af (s : State) (p : Word) (v : Byte) : (s.ioWriteAt p v).af = s.af := rfl
@[simp] theorem State.ioWriteAt_bc (s : State) (p : Word) (v : Byte) : (s.ioWriteAt p v).bc = s.bc := rfl
@[simp] theorem State.ioWriteAt_de (s : State) (p : Word) (v : Byte) : (s.ioWriteAt p v).de = s.de := rfl
@[simp] theorem State.ioWriteAt_hl (s : State) (p : Word) (v : Byte) : (s.ioWriteAt p v).hl = s.hl := rfl
@[simp] theorem State.ioWriteAt_afAlt (s : State) (p : Word) (v : Byte) : (s.ioWriteAt p v).afAlt = s.afAlt := rfl
@[simp] theorem State.ioWriteAt_bcAlt (s : State) (p : Word) (v : Byte) : (s.ioWriteAt p v).bcAlt = s.bcAlt := rfl
@[simp] theorem State.ioWriteAt_deAlt (s : State) (p : Word) (v : Byte) : (s.ioWriteAt p v).deAlt = s.deAlt := rfl
@[simp] theorem State.ioWriteAt_hlAlt (s : State) (p : Word) (v : Byte) : (s.ioWriteAt p v).hlAlt = s.hlAlt := rfl
@[simp] theorem State.ioWriteAt_ix (s : State) (p : Word) (v : Byte) : (s.ioWriteAt p v).ix = s.ix := rfl
@[simp] theorem State.ioWriteAt_iy (s : State) (p : Word) (v : Byte) : (s.ioWriteAt p v).iy = s.iy := rfl
@[simp] theorem State.ioWriteAt_sp (s : State) (p : Word) (v : Byte) : (s.ioWriteAt p v).sp = s.sp := rfl
@[simp] theorem State.ioWriteAt_pc (s : State) (p : Word) (v : Byte) : (s.ioWriteAt p v).pc = s.pc := rfl
@[simp] theorem State.ioWriteAt_ir (s : State) (p : Word) (v : Byte) : (s.ioWriteAt p v).ir = s.ir := rfl
@[simp] theorem State.ioWriteAt_wz (s : State) (p : Word) (v : Byte) : (s.ioWriteAt p v).wz = s.wz := rfl
@[simp] theorem State.ioWriteAt_iff1 (s : State) (p : Word) (v : Byte) : (s.ioWriteAt p v).iff1 = s.iff1 := rfl
@[simp] theorem State.ioWriteAt_iff2 (s : State) (p : Word) (v : Byte) : (s.ioWriteAt p v).iff2 = s.iff2 := rfl
@[simp] theorem State.ioWriteAt_im (s : State) (p : Word) (v : Byte) : (s.ioWriteAt p v).im = s.im := rfl
@[simp] theorem State.ioWriteAt_halted (s : State) (p : Word) (v : Byte) : (s.ioWriteAt p v).halted = s.halted := rfl
@[simp] theorem State.ioWriteAt_eiBlock (s : State) (p : Word) (v : Byte) : (s.ioWriteAt p v).eiBlock = s.eiBlock := rfl
@[simp] theorem State.ioWriteAt_nmiPend (s : State) (p : Word) (v : Byte) : (s.ioWriteAt p v).nmiPend = s.nmiPend := rfl
@[simp] theorem State.ioWriteAt_irqPend (s : State) (p : Word) (v : Byte) : (s.ioWriteAt p v).irqPend = s.irqPend := rfl
@[simp] theorem State.ioWriteAt_mem (s : State) (p : Word) (v : Byte) : (s.ioWriteAt p v).mem = s.mem := rfl
@[simp] theorem State.ioWriteAt_agent (s : State) (p : Word) (v : Byte) : (s.ioWriteAt p v).agent = s.agent := rfl
@[simp] theorem State.ioWriteAt_draws (s : State) (p : Word) (v : Byte) : (s.ioWriteAt p v).draws = s.draws := rfl

/-! ### goto -/

@[simp] theorem State.goto_af (s : State) (a : Word) : (s.goto a).af = s.af := rfl
@[simp] theorem State.goto_bc (s : State) (a : Word) : (s.goto a).bc = s.bc := rfl
@[simp] theorem State.goto_de (s : State) (a : Word) : (s.goto a).de = s.de := rfl
@[simp] theorem State.goto_hl (s : State) (a : Word) : (s.goto a).hl = s.hl := rfl
@[simp] theorem State.goto_afAlt (s : State) (a : Word) : (s.goto a).afAlt = s.afAlt := rfl
@[simp] theorem State.goto_bcAlt (s : State) (a : Word) : (s.goto a).bcAlt = s.bcAlt := rfl
@[simp] theorem State.goto_deAlt (s : State) (a : Word) : (s.goto a).deAlt = s.deAlt := rfl
@[simp] theorem State.goto_hlAlt (s : State) (a : Word) : (s.goto a).hlAlt = s.hlAlt := rfl
@[simp] theorem State.goto_ix (s : State) (a : Word) : (s.goto a).ix = s.ix := rfl
@[simp] theorem State.goto_iy (s : State) (a : Word) : (s.goto a).iy = s.iy := rfl
@[simp] theorem State.goto_sp (s : State) (a : Word) : (s.goto a).sp = s.sp := rfl
@[simp] theorem State.goto_pc (s : State) (a : Word) : (s.goto a).pc = a := rfl
@[simp] theorem State.goto_ir (s : State) (a : Word) : (s.goto a).ir = s.ir := rfl
@[simp] theorem State.goto_wz (s : State) (a : Word) : (s.goto a).wz = a := rfl
@[simp] theorem State.goto_iff1 (s : State) (a : Word) : (s.goto a).iff1 = s.iff1 := rfl
@[simp] theorem State.goto_iff2 (s : State) (a : Word) : (s.goto a).iff2 = s.iff2 := rfl
@[simp] theorem State.goto_im (s : State) (a : Word) : (s.goto a).im = s.im := rfl
@[simp] theorem State.goto_halted (s : State) (a : Word) : (s.goto a).halted = s.halted := rfl
@[simp] theorem State.goto_eiBlock (s : State) (a : Word) : (s.goto a).eiBlock = s.eiBlock := rfl
@[simp] theorem State.goto_nmiPend (s : State) (a : Word) : (s.goto a).nmiPend = s.nmiPend := rfl
@[simp] theorem State.goto_irqPend (s : State) (a : Word) : (s.goto a).irqPend = s.irqPend := rfl
@[simp] theorem State.goto_t (s : State) (a : Word) : (s.goto a).t = s.t := rfl
@[simp] theorem State.goto_mem (s : State) (a : Word) : (s.goto a).mem = s.mem := rfl
@[simp] theorem State.goto_agent (s : State) (a : Word) : (s.goto a).agent = s.agent := rfl
@[simp] theorem State.goto_bus (s : State) (a : Word) : (s.goto a).bus = s.bus := rfl
@[simp] theorem State.goto_draws (s : State) (a : Word) : (s.goto a).draws = s.draws := rfl

/-! ### setA -/

@[simp] theorem State.setA_af (s : State) (v : Byte) : (s.setA v).af = withHi s.af v := rfl
@[simp] theorem State.setA_bc (s : State) (v : Byte) : (s.setA v).bc = s.bc := rfl
@[simp] theorem State.setA_de (s : State) (v : Byte) : (s.setA v).de = s.de := rfl
@[simp] theorem State.setA_hl (s : State) (v : Byte) : (s.setA v).hl = s.hl := rfl
@[simp] theorem State.setA_afAlt (s : State) (v : Byte) : (s.setA v).afAlt = s.afAlt := rfl
@[simp] theorem State.setA_bcAlt (s : State) (v : Byte) : (s.setA v).bcAlt = s.bcAlt := rfl
@[simp] theorem State.setA_deAlt (s : State) (v : Byte) : (s.setA v).deAlt = s.deAlt := rfl
@[simp] theorem State.setA_hlAlt (s : State) (v : Byte) : (s.setA v).hlAlt = s.hlAlt := rfl
@[simp] theorem State.setA_ix (s : State) (v : Byte) : (s.setA v).ix = s.ix := rfl
@[simp] theorem State.setA_iy (s : State) (v : Byte) : (s.setA v).iy = s.iy := rfl
@[simp] theorem State.setA_sp (s : State) (v : Byte) : (s.setA v).sp = s.sp := rfl
@[simp] theorem State.setA_pc (s : State) (v : Byte) : (s.setA v).pc = s.pc := rfl
@[simp] theorem State.setA_ir (s : State) (v : Byte) : (s.setA v).ir = s.ir := rfl
@[simp] theorem State.setA_wz (s : State) (v : Byte) : (s.setA v).wz = s.wz := rfl
@[simp] theorem State.setA_iff1 (s : State) (v : Byte) : (s.setA v).iff1 = s.iff1 := rfl
@[simp] theorem State.setA_iff2 (s : State) (v : Byte) : (s.setA v).iff2 = s.iff2 := rfl
@[simp] theorem State.setA_im (s : State) (v : Byte) : (s.setA v).im = s.im := rfl
@[simp] theorem State.setA_halted (s : State) (v : Byte) : (s.setA v).halted = s.halted := rfl
@[simp] theorem State.setA_eiBlock (s : State) (v : Byte) : (s.setA v).eiBlock = s.eiBlock := rfl
@[simp] theorem State.setA_nmiPend (s : State) (v : Byte) : (s.setA v).nmiPend = s.nmiPend := rfl
@[simp] theorem State.setA_irqPend (s : State) (v : Byte) : (s.setA v).irqPend = s.irqPend := rfl
@[simp] theorem State.setA_t (s : State) (v : Byte) : (s.setA v).t = s.t := rfl
@[simp] theorem State.setA_mem (s : State) (v : Byte) : (s.setA v).mem = s.mem := rfl
@[simp] theorem State.setA_agent (s : State) (v : Byte) : (s.setA v).agent = s.agent := rfl
@[simp] theorem State.setA_bus (s : State) (v : Byte) : (s.setA v).bus = s.bus := rfl
@[simp] theorem State.setA_draws (s : State) (v : Byte) : (s.setA v).draws = s.draws := rfl

/-! ### setF -/

@[simp] theorem State.setF_af (s : State) (v : Byte) : (s.setF v).af = withLo s.af v := rfl
@[simp] theorem State.setF_bc (s : State) (v : Byte) : (s.setF v).bc = s.bc := rfl
@[simp] theorem State.setF_de (s : State) (v : Byte) : (s.setF v).de = s.de := rfl
@[simp] theorem State.setF_hl (s : State) (v : Byte) : (s.setF v).hl = s.hl := rfl
@[simp] theorem State.setF_afAlt (s : State) (v : Byte) : (s.setF v).afAlt = s.afAlt := rfl
@[simp] theorem State.setF_bcAlt (s : State) (v : Byte) : (s.setF v).bcAlt = s.bcAlt := rfl
@[simp] theorem State.setF_deAlt (s : State) (v : Byte) : (s.setF v).deAlt = s.deAlt := rfl
@[simp] theorem State.setF_hlAlt (s : State) (v : Byte) : (s.setF v).hlAlt = s.hlAlt := rfl
@[simp] theorem State.setF_ix (s : State) (v : Byte) : (s.setF v).ix = s.ix := rfl
@[simp] theorem State.setF_iy (s : State) (v : Byte) : (s.setF v).iy = s.iy := rfl
@[simp] theorem State.setF_sp (s : State) (v : Byte) : (s.setF v).sp = s.sp := rfl
@[simp] theorem State.setF_pc (s : State) (v : Byte) : (s.setF v).pc = s.pc := rfl
@[simp] theorem State.setF_ir (s : State) (v : Byte) : (s.setF v).ir = s.ir := rfl
@[simp] theorem State.setF_wz (s : State) (v : Byte) : (s.setF v).wz = s.wz := rfl
@[simp] theorem State.setF_iff1 (s : State) (v : Byte) : (s.setF v).iff1 = s.iff1 := rfl
@[simp] theorem State.setF_iff2 (s : State) (v : Byte) : (s.setF v).iff2 = s.iff2 := rfl
@[simp] theorem State.setF_im (s : State) (v : Byte) : (s.setF v).im = s.im := rfl
@[simp] theorem State.setF_halted (s : State) (v : Byte) : (s.setF v).halted = s.halted := rfl
@[simp] theorem State.setF_eiBlock (s : State) (v : Byte) : (s.setF v).eiBlock = s.eiBlock := rfl
@[simp] theorem State.setF_nmiPend (s : State) (v : Byte) : (s.setF v).nmiPend = s.nmiPend := rfl
@[simp] theorem State.setF_irqPend (s : State) (v : Byte) : (s.setF v).irqPend = s.irqPend := rfl
@[simp] theorem State.setF_t (s : State) (v : Byte) : (s.setF v).t = s.t := rfl
@[simp] theorem State.setF_mem (s : State) (v : Byte) : (s.setF v).mem = s.mem := rfl
@[simp] theorem State.setF_agent (s : State) (v : Byte) : (s.setF v).agent = s.agent := rfl
@[simp] theorem State.setF_bus (s : State) (v : Byte) : (s.setF v).bus = s.bus := rfl
@[simp] theorem State.setF_draws (s : State) (v : Byte) : (s.setF v).draws = s.draws := rfl

/-! ### setAF -/

@[simp] theorem State.setAF_af (s : State) (v : Byte × Byte) : (s.setAF v).af = cat v.1 v.2 := rfl
@[simp] theorem State.setAF_bc (s : State) (v : Byte × Byte) : (s.setAF v).bc = s.bc := rfl
@[simp] theorem State.setAF_de (s : State) (v : Byte × Byte) : (s.setAF v).de = s.de := rfl
@[simp] theorem State.setAF_hl (s : State) (v : Byte × Byte) : (s.setAF v).hl = s.hl := rfl
@[simp] theorem State.setAF_afAlt (s : State) (v : Byte × Byte) : (s.setAF v).afAlt = s.afAlt := rfl
@[simp] theorem State.setAF_bcAlt (s : State) (v : Byte × Byte) : (s.setAF v).bcAlt = s.bcAlt := rfl
@[simp] theorem State.setAF_deAlt (s : State) (v : Byte × Byte) : (s.setAF v).deAlt = s.deAlt := rfl
@[simp] theorem State.setAF_hlAlt (s : State) (v : Byte × Byte) : (s.setAF v).hlAlt = s.hlAlt := rfl
@[simp] theorem State.setAF_ix (s : State) (v : Byte × Byte) : (s.setAF v).ix = s.ix := rfl
@[simp] theorem State.setAF_iy (s : State) (v : Byte × Byte) : (s.setAF v).iy = s.iy := rfl
@[simp] theorem State.setAF_sp (s : State) (v : Byte × Byte) : (s.setAF v).sp = s.sp := rfl
@[simp] theorem State.setAF_pc (s : State) (v : Byte × Byte) : (s.setAF v).pc = s.pc := rfl
@[simp] theorem State.setAF_ir (s : State) (v : Byte × Byte) : (s.setAF v).ir = s.ir := rfl
@[simp] theorem State.setAF_wz (s : State) (v : Byte × Byte) : (s.setAF v).wz = s.wz := rfl
@[simp] theorem State.setAF_iff1 (s : State) (v : Byte × Byte) : (s.setAF v).iff1 = s.iff1 := rfl
@[simp] theorem State.setAF_iff2 (s : State) (v : Byte × Byte) : (s.setAF v).iff2 = s.iff2 := rfl
@[simp] theorem State.setAF_im (s : State) (v : Byte × Byte) : (s.setAF v).im = s.im := rfl
@[simp] theorem State.setAF_halted (s : State) (v : Byte × Byte) : (s.setAF v).halted = s.halted := rfl
@[simp] theorem State.setAF_eiBlock (s : State) (v : Byte × Byte) : (s.setAF v).eiBlock = s.eiBlock := rfl
@[simp] theorem State.setAF_nmiPend (s : State) (v : Byte × Byte) : (s.setAF v).nmiPend = s.nmiPend := rfl
@[simp] theorem State.setAF_irqPend (s : State) (v : Byte × Byte) : (s.setAF v).irqPend = s.irqPend := rfl
@[simp] theorem State.setAF_t (s : State) (v : Byte × Byte) : (s.setAF v).t = s.t := rfl
@[simp] theorem State.setAF_mem (s : State) (v : Byte × Byte) : (s.setAF v).mem = s.mem := rfl
@[simp] theorem State.setAF_agent (s : State) (v : Byte × Byte) : (s.setAF v).agent = s.agent := rfl
@[simp] theorem State.setAF_bus (s : State) (v : Byte × Byte) : (s.setAF v).bus = s.bus := rfl
@[simp] theorem State.setAF_draws (s : State) (v : Byte × Byte) : (s.setAF v).draws = s.draws := rfl

/-! ### setB -/

@[simp] theorem State.setB_af (s : State) (v : Byte) : (s.setB v).af = s.af := rfl
@[simp] theorem State.setB_bc (s : State) (v : Byte) : (s.setB v).bc = withHi s.bc v := rfl
@[simp] theorem State.setB_de (s : State) (v : Byte) : (s.setB v).de = s.de := rfl
@[simp] theorem State.setB_hl (s : State) (v : Byte) : (s.setB v).hl = s.hl := rfl
@[simp] theorem State.setB_afAlt (s : State) (v : Byte) : (s.setB v).afAlt = s.afAlt := rfl
@[simp] theorem State.setB_bcAlt (s : State) (v : Byte) : (s.setB v).bcAlt = s.bcAlt := rfl
@[simp] theorem State.setB_deAlt (s : State) (v : Byte) : (s.setB v).deAlt = s.deAlt := rfl
@[simp] theorem State.setB_hlAlt (s : State) (v : Byte) : (s.setB v).hlAlt = s.hlAlt := rfl
@[simp] theorem State.setB_ix (s : State) (v : Byte) : (s.setB v).ix = s.ix := rfl
@[simp] theorem State.setB_iy (s : State) (v : Byte) : (s.setB v).iy = s.iy := rfl
@[simp] theorem State.setB_sp (s : State) (v : Byte) : (s.setB v).sp = s.sp := rfl
@[simp] theorem State.setB_pc (s : State) (v : Byte) : (s.setB v).pc = s.pc := rfl
@[simp] theorem State.setB_ir (s : State) (v : Byte) : (s.setB v).ir = s.ir := rfl
@[simp] theorem State.setB_wz (s : State) (v : Byte) : (s.setB v).wz = s.wz := rfl
@[simp] theorem State.setB_iff1 (s : State) (v : Byte) : (s.setB v).iff1 = s.iff1 := rfl
@[simp] theorem State.setB_iff2 (s : State) (v : Byte) : (s.setB v).iff2 = s.iff2 := rfl
@[simp] theorem State.setB_im (s : State) (v : Byte) : (s.setB v).im = s.im := rfl
@[simp] theorem State.setB_halted (s : State) (v : Byte) : (s.setB v).halted = s.halted := rfl
@[simp] theorem State.setB_eiBlock (s : State) (v : Byte) : (s.setB v).eiBlock = s.eiBlock := rfl
@[simp] theorem State.setB_nmiPend (s : State) (v : Byte) : (s.setB v).nmiPend = s.nmiPend := rfl
@[simp] theorem State.setB_irqPend (s : State) (v : Byte) : (s.setB v).irqPend = s.irqPend := rfl
@[simp] theorem State.setB_t (s : State) (v : Byte) : (s.setB v).t = s.t := rfl
@[simp] theorem State.setB_mem (s : State) (v : Byte) : (s.setB v).mem = s.mem := rfl
@[simp] theorem State.setB_agent (s : State) (v : Byte) : (s.setB v).agent = s.agent := rfl
@[simp] theorem State.setB_bus (s : State) (v : Byte) : (s.setB v).bus = s.bus := rfl
@[simp] theorem State.setB_draws (s : State) (v : Byte) : (s.setB v).draws = s.draws := rfl

/-! ### readWordAt -/

@[simp] theorem State.readWordAt_af (s : State) (a : Word) : (s.readWordAt a).af = s.af := by simp [State.readWordAt]
@[simp] theorem State.readWordAt_bc (s : State) (a : Word) : (s.readWordAt a).bc = s.bc := by simp [State.readWordAt]
@[simp] theorem State.readWordAt_de (s : State) (a : Word) : (s.readWordAt a).de = s.de := by simp [State.readWordAt]
@[simp] theorem State.readWordAt_hl (s : State) (a : Word) : (s.readWordAt a).hl = s.hl := by simp [State.readWordAt]
@[simp] theorem State.readWordAt_afAlt (s : State) (a : Word) : (s.readWordAt a).afAlt = s.afAlt := by simp [State.readWordAt]
@[simp] theorem State.readWordAt_bcAlt (s : State) (a : Word) : (s.readWordAt a).bcAlt = s.bcAlt := by simp [State.readWordAt]
@[simp] theorem State.readWordAt_deAlt (s : State) (a : Word) : (s.readWordAt a).deAlt = s.deAlt := by simp [State.readWordAt]
@[simp] theorem State.readWordAt_hlAlt (s : State) (a : Word) : (s.readWordAt a).hlAlt = s.hlAlt := by simp [State.readWordAt]
@[simp] theorem State.readWordAt_ix (s : State) (a : Word) : (s.readWordAt a).ix = s.ix := by simp [State.readWordAt]
@[simp] theorem State.readWordAt_iy (s : State) (a : Word) : (s.readWordAt a).iy = s.iy := by simp [State.readWordAt]
@[simp] theorem State.readWordAt_sp (s : State) (a : Word) : (s.readWordAt a).sp = s.sp := by simp [State.readWordAt]
@[simp] theorem State.readWordAt_pc (s : State) (a : Word) : (s.readWordAt a).pc = s.pc := by simp [State.readWordAt]
@[simp] theorem State.readWordAt_ir (s : State) (a : Word) : (s.readWordAt a).ir = s.ir := by simp [State.readWordAt]
@[simp] theorem State.readWordAt_wz (s : State) (a : Word) : (s.readWordAt a).wz = s.wz := by simp [State.readWordAt]
@[simp] theorem State.readWordAt_iff1 (s : State) (a : Word) : (s.readWordAt a).iff1 = s.iff1 := by simp [State.readWordAt]
@[simp] theorem State.readWordAt_iff2 (s : State) (a : Word) : (s.readWordAt a).iff2 = s.iff2 := by simp [State.readWordAt]
@[simp] theorem State.readWordAt_im (s : State) (a : Word) : (s.readWordAt a).im = s.im := by simp [State.readWordAt]
@[simp] theorem State.readWordAt_halted (s : State) (a : Word) : (s.readWordAt a).halted = s.halted := by simp [State.readWordAt]
@[simp] theorem State.readWordAt_eiBlock (s : State) (a : Word) : (s.readWordAt a).eiBlock = s.eiBlock := by simp [State.readWordAt]
@[simp] theorem State.readWordAt_nmiPend (s : State) (a : Word) : (s.readWordAt a).nmiPend = s.nmiPend := by simp [State.readWordAt]
@[simp] theorem State.readWordAt_irqPend (s : State) (a : Word) : (s.readWordAt a).irqPend = s.irqPend := by simp [State.readWordAt]
@[simp] theorem State.readWordAt_mem (s : State) (a : Word) : (s.readWordAt a).mem = s.mem := by simp [State.readWordAt]
@[simp] theorem State.readWordAt_agent (s : State) (a : Word) : (s.readWordAt a).agent = s.agent := by simp [State.readWordAt]
@[simp] theorem State.readWordAt_draws (s : State) (a : Word) : (s.readWordAt a).draws = s.draws + 1 + 1 := by simp [State.readWordAt]

/-! ### writeWordAt -/

@[simp] theorem State.writeWordAt_af (s : State) (a w : Word) : (s.writeWordAt a w).af = s.af := by simp [State.writeWordAt]
@[simp] theorem State.writeWordAt_bc (s : State) (a w : Word) : (s.writeWordAt a w).bc = s.bc := by simp [State.writeWordAt]
@[simp] theorem State.writeWordAt_de (s : State) (a w : Word) : (s.writeWordAt a w).de = s.de := by simp [State.writeWordAt]
@[simp] theorem State.writeWordAt_hl (s : State) (a w : Word) : (s.writeWordAt a w).hl = s.hl := by simp [State.writeWordAt]
@[simp] theorem State.writeWordAt_afAlt (s : State) (a w : Word) : (s.writeWordAt a w).afAlt = s.afAlt := by simp [State.writeWordAt]
@[simp] theorem State.writeWordAt_bcAlt (s : State) (a w : Word) : (s.writeWordAt a w).bcAlt = s.bcAlt := by simp [State.writeWordAt]
@[simp] theorem State.writeWordAt_deAlt (s : State) (a w : Word) : (s.writeWordAt a w).deAlt = s.deAlt := by simp [State.writeWordAt]
@[simp] theorem State.writeWordAt_hlAlt (s : State) (a w : Word) : (s.writeWordAt a w).hlAlt = s.hlAlt := by simp [State.writeWordAt]
@[simp] theorem State.writeWordAt_ix (s : State) (a w : Word) : (s.writeWordAt a w).ix = s.ix := by simp [State.writeWordAt]
@[simp] theorem State.writeWordAt_iy (s : State) (a w : Word) : (s.writeWordAt a w).iy = s.iy := by simp [State.writeWordAt]
@[simp] theorem State.writeWordAt_sp (s : State) (a w : Word) : (s.writeWordAt a w).sp = s.sp := by simp [State.writeWordAt]
@[simp] theorem State.writeWordAt_pc (s : State) (a w : Word) : (s.writeWordAt a w).pc = s.pc := by simp [State.writeWordAt]
@[simp] theorem State.writeWordAt_ir (s : State) (a w : Word) : (s.writeWordAt a w).ir = s.ir := by simp [State.writeWordAt]
@[simp] theorem State.writeWordAt_wz (s : State) (a w : Word) : (s.writeWordAt a w).wz = s.wz := by simp [State.writeWordAt]
@[simp] theorem State.writeWordAt_iff1 (s : State) (a w : Word) : (s.writeWordAt a w).iff1 = s.iff1 := by simp [State.writeWordAt]
@[simp] theorem State.writeWordAt_iff2 (s : State) (a w : Word) : (s.writeWordAt a w).iff2 = s.iff2 := by simp [State.writeWordAt]
@[simp] theorem State.writeWordAt_im (s : State) (a w : Word) : (s.writeWordAt a w).im = s.im := by simp [State.writeWordAt]
@[simp] theorem State.writeWordAt_halted (s : State) (a w : Word) : (s.writeWordAt a w).halted = s.halted := by simp [State.writeWordAt]
@[simp] theorem State.writeWordAt_eiBlock (s : State) (a w : Word) : (s.writeWordAt a w).eiBlock = s.eiBlock := by simp [State.writeWordAt]
@[simp] theorem State.writeWordAt_nmiPend (s : State) (a w : Word) : (s.writeWordAt a w).nmiPend = s.nmiPend := by simp [State.writeWordAt]
@[simp] theorem State.writeWordAt_irqPend (s : State) (a w : Word) : (s.writeWordAt a w).irqPend = s.irqPend := by simp [State.writeWordAt]
@[simp] theorem State.writeWordAt_mem (s : State) (a w : Word) : (s.writeWordAt a w).mem = (s.mem.write a.toNat (lo8 w)).write (a + 1).toNat (hi8 w) := by simp [State.writeWordAt]
@[simp] theorem State.writeWordAt_agent (s : State) (a w : Word) : (s.writeWordAt a w).agent = s.agent := by simp [State.writeWordAt]
@[simp] theorem State.writeWordAt_draws (s : State) (a w : Word) : (s.writeWordAt a w).draws = s.draws := by simp [State.writeWordAt]

/-! ### pushByte -/

@[simp] theorem State.pushByte_af (s : State) (v : Byte) : (s.pushByte v).af = s.af := rfl
@[simp] theorem State.pushByte_bc (s : State) (v : Byte) : (s.pushByte v).bc = s.bc := rfl
@[simp] theorem State.pushByte_de (s : State) (v : Byte) : (s.pushByte v).de = s.de := rfl
@[simp] theorem State.pushByte_hl (s : State) (v : Byte) : (s.pushByte v).hl = s.hl := rfl
@[simp] theorem State.pushByte_afAlt (s : State) (v : Byte) : (s.pushByte v).afAlt = s.afAlt := rfl
@[simp] theorem State.pushByte_bcAlt (s : State) (v : Byte) : (s.pushByte v).bcAlt = s.bcAlt := rfl
@[simp] theorem State.pushByte_deAlt (s : State) (v : Byte) : (s.pushByte v).deAlt = s.deAlt := rfl
@[simp] theorem State.pushByte_hlAlt (s : State) (v : Byte) : (s.pushByte v).hlAlt = s.hlAlt := rfl
@[simp] theorem State.pushByte_ix (s : State) (v : Byte) : (s.pushByte v).ix = s.ix := rfl
@[simp] theorem State.pushByte_iy (s : State) (v : Byte) : (s.pushByte v).iy = s.iy := rfl
@[simp] theorem State.pushByte_sp (s : State) (v : Byte) : (s.pushByte v).sp = s.sp - 1 := rfl
@[simp] theorem State.pushByte_pc (s : State) (v : Byte) : (s.pushByte v).pc = s.pc := rfl
@[simp] theorem State.pushByte_ir (s : State) (v : Byte) : (s.pushByte v).ir = s.ir := rfl
@[simp] theorem State.pushByte_wz (s : State) (v : Byte) : (s.pushByte v).wz = s.wz := rfl
@[simp] theorem State.pushByte_iff1 (s : State) (v : Byte) : (s.pushByte v).iff1 = s.iff1 := rfl
@[simp] theorem State.pushByte_iff2 (s : State) (v : Byte) : (s.pushByte v).iff2 = s.iff2 := rfl
@[simp] theorem State.pushByte_im (s : State) (v : Byte) : (s.pushByte v).im = s.im := rfl
@[simp] theorem State.pushByte_halted (s : State) (v : Byte) : (s.pushByte v).halted = s.halted := rfl
@[simp] theorem State.pushByte_eiBlock (s : State) (v : Byte) : (s.pushByte v).eiBlock = s.eiBlock := rfl
@[simp] theorem State.pushByte_nmiPend (s : State) (v : Byte) : (s.pushByte v).nmiPend = s.nmiPend := rfl
@[simp] theorem State.pushByte_irqPend (s : State) (v : Byte) : (s.pushByte v).irqPend = s.irqPend := rfl
@[simp] theorem State.pushByte_mem (s : State) (v : Byte) : (s.pushByte v).mem = s.mem.write (s.sp - 1).toNat v := rfl
@[simp] theorem State.pushByte_agent (s : State) (v : Byte) : (s.pushByte v).agent = s.agent := rfl
@[simp] theorem State.pushByte_draws (s : State) (v : Byte) : (s.pushByte v).draws = s.draws := rfl

/-! ### push -/

@[simp] theorem State.push_af (s : State) (w : Word) : (s.push w).af = s.af := by simp [State.push]
@[simp] theorem State.push_bc (s : State) (w : Word) : (s.push w).bc = s.bc := by simp [State.push]
@[simp] theorem State.push_de (s : State) (w : Word) : (s.push w).de = s.de := by simp [State.push]
@[simp] theorem State.push_hl (s : State) (w : Word) : (s.push w).hl = s.hl := by simp [State.push]
@[simp] theorem State.push_afAlt (s : State) (w : Word) : (s.push w).afAlt = s.afAlt := by simp [State.push]
@[simp] theorem State.push_bcAlt (s : State) (w : Word) : (s.push w).bcAlt = s.bcAlt := by simp [State.push]
@[simp] theorem State.push_deAlt (s : State) (w : Word) : (s.push w).deAlt = s.deAlt := by simp [State.push]
@[simp] theorem State.push_hlAlt (s : State) (w : Word) : (s.push w).hlAlt = s.hlAlt := by simp [State.push]
@[simp] theorem State.push_ix (s : State) (w : Word) : (s.push w).ix = s.ix := by simp [State.push]
@[simp] theorem State.push_iy (s : State) (w : Word) : (s.push w).iy = s.iy := by simp [State.push]
@[simp] theorem State.push_sp (s : State) (w : Word) : (s.push w).sp = s.sp - 1 - 1 := by simp [State.push]
@[simp] theorem State.push_pc (s : State) (w : Word) : (s.push w).pc = s.pc := by simp [State.push]
@[simp] theorem State.push_ir (s : State) (w : Word) : (s.push w).ir = s.ir := by simp [State.push]
@[simp] theorem State.push_wz (s : State) (w : Word) : (s.push w).wz = s.wz := by simp [State.push]
@[simp] theorem State.push_iff1 (s : State) (w : Word) : (s.push w).iff1 = s.iff1 := by simp [State.push]
@[simp] theorem State.push_iff2 (s : State) (w : Word) : (s.push w).iff2 = s.iff2 := by simp [State.push]
@[simp] theorem State.push_im (s : State) (w : Word) : (s.push w).im = s.im := by simp [State.push]
@[simp] theorem State.push_halted (s : State) (w : Word) : (s.push w).halted = s.halted := by simp [State.push]
@[simp] theorem State.push_eiBlock (s : State) (w : Word) : (s.push w).eiBlock = s.eiBlock := by simp [State.push]
@[simp] theorem State.push_nmiPend (s : State) (w : Word) : (s.push w).nmiPend = s.nmiPend := by simp [State.push]
@[simp] theorem State.push_irqPend (s : State) (w : Word) : (s.push w).irqPend = s.irqPend := by simp [State.push]
@[simp] theorem State.push_mem (s : State) (w : Word) : (s.push w).mem = (s.mem.write (s.sp - 1).toNat (hi8 w)).write (s.sp - 1 - 1).toNat (lo8 w) := by simp [State.push]
@[simp] theorem State.push_agent (s : State) (w : Word) : (s.push w).agent = s.agent := by simp [State.push]
@[simp] theorem State.push_draws (s : State) (w : Word) : (s.push w).draws = s.draws := by simp [State.push]

/-! ### popByte -/

@[simp] theorem State.popByte_af (s : State) : (s.popByte).af = s.af := rfl
@[simp] theorem State.popByte_bc (s : State) : (s.popByte).bc = s.bc := rfl
@[simp] theorem State.popByte_de (s : State) : (s.popByte).de = s.de := rfl
@[simp] theorem State.popByte_hl (s : State) : (s.popByte).hl = s.hl := rfl
@[simp] theorem State.popByte_afAlt (s : State) : (s.popByte).afAlt = s.afAlt := rfl
@[simp] theorem State.popByte_bcAlt (s : State) : (s.popByte).bcAlt = s.bcAlt := rfl
@[simp] theorem State.popByte_deAlt (s : State) : (s.popByte).deAlt = s.deAlt := rfl
@[simp] theorem State.popByte_hlAlt (s : State) : (s.popByte).hlAlt = s.hlAlt := rfl
@[simp] theorem State.popByte_ix (s : State) : (s.popByte).ix = s.ix := rfl
@[simp] theorem State.popByte_iy (s : State) : (s.popByte).iy = s.iy := rfl
@[simp] theorem State.popByte_sp (s : State) : (s.popByte).sp = s.sp + 1 := rfl
@[simp] theorem State.popByte_pc (s : State) : (s.popByte).pc = s.pc := rfl
@[simp] theorem State.popByte_ir (s : State) : (s.popByte).ir = s.ir := rfl
@[simp] theorem State.popByte_wz (s : State) : (s.popByte).wz = s.wz := rfl
@[simp] theorem State.popByte_iff1 (s : State) : (s.popByte).iff1 = s.iff1 := rfl
@[simp] theorem State.popByte_iff2 (s : State) : (s.popByte).iff2 = s.iff2 := rfl
@[simp] theorem State.popByte_im (s : State) : (s.popByte).im = s.im := rfl
@[simp] theorem State.popByte_halted (s : State) : (s.popByte).halted = s.halted := rfl
@[simp] theorem State.popByte_eiBlock (s : State) : (s.popByte).eiBlock = s.eiBlock := rfl
@[simp] theorem State.popByte_nmiPend (s : State) : (s.popByte).nmiPend = s.nmiPend := rfl
@[simp] theorem State.popByte_irqPend (s : State) : (s.popByte).irqPend = s.irqPend := rfl
@[simp] theorem State.popByte_mem (s : State) : (s.popByte).mem = s.mem := rfl
@[simp] theorem State.popByte_agent (s : State) : (s.popByte).agent = s.agent := rfl
@[simp] theorem State.popByte_draws (s : State) : (s.popByte).draws = s.draws + 1 := rfl

/-! ### pop -/

@[simp] theorem State.pop_af (s : State) : (s.pop).af = s.af := by simp [State.pop]
@[simp] theorem State.pop_bc (s : State) : (s.pop).bc = s.bc := by simp [State.pop]
@[simp] theorem State.pop_de (s : State) : (s.pop).de = s.de := by simp [State.pop]
@[simp] theorem State.pop_hl (s : State) : (s.pop).hl = s.hl := by simp [State.pop]
@[simp] theorem State.pop_afAlt (s : State) : (s.pop).afAlt = s.afAlt := by simp [State.pop]
@[simp] theorem State.pop_bcAlt (s : State) : (s.pop).bcAlt = s.bcAlt := by simp [State.pop]
@[simp] theorem State.pop_deAlt (s : State) : (s.pop).deAlt = s.deAlt := by simp [State.pop]
@[simp] theorem State.pop_hlAlt (s : State) : (s.pop).hlAlt = s.hlAlt := by simp [State.pop]
@[simp] theorem State.pop_ix (s : State) : (s.pop).ix = s.ix := by simp [State.pop]
@[simp] theorem State.pop_iy (s : State) : (s.pop).iy = s.iy := by simp [State.pop]
@[simp] theorem State.pop_sp (s : State) : (s.pop).sp = s.sp + 1 + 1 := by simp [State.pop]
@[simp] theorem State.pop_pc (s : State) : (s.pop).pc = s.pc := by simp [State.pop]
@[simp] theorem State.pop_ir (s : State) : (s.pop).ir = s.ir := by simp [State.pop]
@[simp] theorem State.pop_wz (s : State) : (s.pop).wz = s.wz := by simp [State.pop]
@[simp] theorem State.pop_iff1 (s : State) : (s.pop).iff1 = s.iff1 := by simp [State.pop]
@[simp] theorem State.pop_iff2 (s : State) : (s.pop).iff2 = s.iff2 := by simp [State.pop]
@[simp] theorem State.pop_im (s : State) : (s.pop).im = s.im := by simp [State.pop]
@[simp] theorem State.pop_halted (s : State) : (s.pop).halted = s.halted := by simp [State.pop]
@[simp] theorem State.pop_eiBlock (s : State) : (s.pop).eiBlock = s.eiBlock := by simp [State.pop]
@[simp] theorem State.pop_nmiPend (s : State) : (s.pop).nmiPend = s.nmiPend := by simp [State.pop]
@[simp] theorem State.pop_irqPend (s : State) : (s.pop).irqPend = s.irqPend := by simp [State.pop]
@[simp] theorem State.pop_mem (s : State) : (s.pop).mem = s.mem := by simp [State.pop]
@[simp] theorem State.pop_agent (s : State) : (s.pop).agent = s.agent := by simp [State.pop]
@[simp] theorem State.pop_draws (s : State) : (s.pop).draws = s.draws + 1 + 1 := by simp [State.pop]

/-! ### popPc -/

@[simp] theorem State.popPc_af (s : State) : (s.popPc).af = s.af := by simp [State.popPc]
@[simp] theorem State.popPc_bc (s : State) : (s.popPc).bc = s.bc := by simp [State.popPc]
@[simp] theorem State.popPc_de (s : State) : (s.popPc).de = s.de := by simp [State.popPc]
@[simp] theorem State.popPc_hl (s : State) : (s.popPc).hl = s.hl := by simp [State.popPc]
@[simp] theorem State.popPc_afAlt (s : State) : (s.popPc).afAlt = s.afAlt := by simp [State.popPc]
@[simp] theorem State.popPc_bcAlt (s : State) : (s.popPc).bcAlt = s.bcAlt := by simp [State.popPc]
@[simp] theorem State.popPc_deAlt (s : State) : (s.popPc).deAlt = s.deAlt := by simp [State.popPc]
@[simp] theorem State.popPc_hlAlt (s : State) : (s.popPc).hlAlt = s.hlAlt := by simp [State.popPc]
@[simp] theorem State.popPc_ix (s : State) : (s.popPc).ix = s.ix := by simp [State.popPc]
@[simp] theorem State.popPc_iy (s : State) : (s.popPc).iy = s.iy := by simp [State.popPc]
@[simp] theorem State.popPc_sp (s : State) : (s.popPc).sp = s.sp + 1 + 1 := by simp [State.popPc]
@[simp] theorem State.popPc_pc (s : State) : (s.popPc).pc = s.wordAt s.sp := by simp [State.popPc]
@[simp] theorem State.popPc_ir (s : State) : (s.popPc).ir = s.ir := by simp [State.popPc]
@[simp] theorem State.popPc_wz (s : State) : (s.popPc).wz = s.wordAt s.sp := by simp [State.popPc]
@[simp] theorem State.popPc_iff1 (s : State) : (s.popPc).iff1 = s.iff1 := by simp [State.popPc]
@[simp] theorem State.popPc_iff2 (s : State) : (s.popPc).iff2 = s.iff2 := by simp [State.popPc]
@[simp] theorem State.popPc_im (s : State) : (s.popPc).im = s.im := by simp [State.popPc]
@[simp] theorem State.popPc_halted (s : State) : (s.popPc).halted = s.halted := by simp [State.popPc]
@[simp] theorem State.popPc_eiBlock (s : State) : (s.popPc).eiBlock = s.eiBlock := by simp [State.popPc]
@[simp] theorem State.popPc_nmiPend (s : State) : (s.popPc).nmiPend = s.nmiPend := by simp [State.popPc]
@[simp] theorem State.popPc_irqPend (s : State) : (s.popPc).irqPend = s.irqPend := by simp [State.popPc]
@[simp] theorem State.popPc_mem (s : State) : (s.popPc).mem = s.mem := by simp [State.popPc]
@[simp] theorem State.popPc_agent (s : State) : (s.popPc).agent = s.agent := by simp [State.popPc]
@[simp] theorem State.popPc_draws (s : State) : (s.popPc).draws = s.draws + 1 + 1 := by simp [State.popPc]

/-! ### modifyAt -/

@[simp] theorem State.modifyAt_af (s : State) (a : Word) (g : Byte → Byte) : (s.modifyAt a g).af = s.af := by simp [State.modifyAt]
@[simp] theorem State.modifyAt_bc (s : State) (a : Word) (g : Byte → Byte) : (s.modifyAt a g).bc = s.bc := by simp [State.modifyAt]
@[simp] theorem State.modifyAt_de (s : State) (a : Word) (g : Byte → Byte) : (s.modifyAt a g).de = s.de := by simp [State.modifyAt]
@[simp] theorem State.modifyAt_hl (s : State) (a : Word) (g : Byte → Byte) : (s.modifyAt a g).hl = s.hl := by simp [State.modifyAt]
@[simp] theorem State.modifyAt_afAlt (s : State) (a : Word) (g : Byte → Byte) : (s.modifyAt a g).afAlt = s.afAlt := by simp [State.modifyAt]
@[simp] theorem State.modifyAt_bcAlt (s : State) (a : Word) (g : Byte → Byte) : (s.modifyAt a g).bcAlt = s.bcAlt := by simp [State.modifyAt]
@[simp] theorem State.modifyAt_deAlt (s : State) (a : Word) (g : Byte → Byte) : (s.modifyAt a g).deAlt = s.deAlt := by simp [State.modifyAt]
@[simp] theorem State.modifyAt_hlAlt (s : State) (a : Word) (g : Byte → Byte) : (s.modifyAt a g).hlAlt = s.hlAlt := by simp [State.modifyAt]
@[simp] theorem State.modifyAt_ix (s : State) (a : Word) (g : Byte → Byte) : (s.modifyAt a g).ix = s.ix := by simp [State.modifyAt]
@[simp] theorem State.modifyAt_iy (s : State) (a : Word) (g : Byte → Byte) : (s.modifyAt a g).iy = s.iy := by simp [State.modifyAt]
@[simp] theorem State.modifyAt_sp (s : State) (a : Word) (g : Byte → Byte) : (s.modifyAt a g).sp = s.sp := by simp [State.modifyAt]
@[simp] theorem State.modifyAt_pc (s : State) (a : Word) (g : Byte → Byte) : (s.modifyAt a g).pc = s.pc := by simp [State.modifyAt]
@[simp] theorem State.modifyAt_ir (s : State) (a : Word) (g : Byte → Byte) : (s.modifyAt a g).ir = s.ir := by simp [State.modifyAt]
@[simp] theorem State.modifyAt_wz (s : State) (a : Word) (g : Byte → Byte) : (s.modifyAt a g).wz = s.wz := by simp [State.modifyAt]
@[simp] theorem State.modifyAt_iff1 (s : State) (a : Word) (g : Byte → Byte) : (s.modifyAt a g).iff1 = s.iff1 := by simp [State.modifyAt]
@[simp] theorem State.modifyAt_iff2 (s : State) (a : Word) (g : Byte → Byte) : (s.modifyAt a g).iff2 = s.iff2 := by simp [State.modifyAt]
@[simp] theorem State.modifyAt_im (s : State) (a : Word) (g : Byte → Byte) : (s.modifyAt a g).im = s.im := by simp [State.modifyAt]
@[simp] theorem State.modifyAt_halted (s : State) (a : Word) (g : Byte → Byte) : (s.modifyAt a g).halted = s.halted := by simp [State.modifyAt]
@[simp] theorem State.modifyAt_eiBlock (s : State) (a : Word) (g : Byte → Byte) : (s.modifyAt a g).eiBlock = s.eiBlock := by simp [State.modifyAt]
@[simp] theorem State.modifyAt_nmiPend (s : State) (a : Word) (g : Byte → Byte) : (s.modifyAt a g).nmiPend = s.nmiPend := by simp [State.modifyAt]
@[simp] theorem State.modifyAt_irqPend (s : State) (a : Word) (g : Byte → Byte) : (s.modifyAt a g).irqPend = s.irqPend := by simp [State.modifyAt]
@[simp] theorem State.modifyAt_mem (s : State) (a : Word) (g : Byte → Byte) : (s.modifyAt a g).mem = s.mem.write a.toNat (g (s.byteAt a)) := by simp [State.modifyAt]
@[simp] theorem State.modifyAt_agent (s : State) (a : Word) (g : Byte → Byte) : (s.modifyAt a g).agent = s.agent := by simp [State.modifyAt]
@[simp] theorem State.modifyAt_draws (s : State) (a : Word) (g : Byte → Byte) : (s.modifyAt a g).draws = s.draws + 1 := by simp [State.modifyAt]

/-! ### ack -/

@[simp] theorem State.ack_af (s : State) (n : Nat) : (s.ack n).af = s.af := rfl
@[simp] theorem State.ack_bc (s : State) (n : Nat) : (s.ack n).bc = s.bc := rfl
@[simp] theorem State.ack_de (s : State) (n : Nat) : (s.ack n).de = s.de := rfl
@[simp] theorem State.ack_hl (s : State) (n : Nat) : (s.ack n).hl = s.hl := rfl
@[simp] theorem State.ack_afAlt (s : State) (n : Nat) : (s.ack n).afAlt = s.afAlt := rfl
@[simp] theorem State.ack_bcAlt (s : State) (n : Nat) : (s.ack n).bcAlt = s.bcAlt := rfl
@[simp] theorem State.ack_deAlt (s : State) (n : Nat) : (s.ack n).deAlt = s.deAlt := rfl
@[simp] theorem State.ack_hlAlt (s : State) (n : Nat) : (s.ack n).hlAlt = s.hlAlt := rfl
@[simp] theorem State.ack_ix (s : State) (n : Nat) : (s.ack n).ix = s.ix := rfl
@[simp] theorem State.ack_iy (s : State) (n : Nat) : (s.ack n).iy = s.iy := rfl
@[simp] theorem State.ack_sp (s : State) (n : Nat) : (s.ack n).sp = s.sp := rfl
@[simp] theorem State.ack_pc (s : State) (n : Nat) : (s.ack n).pc = s.pc := rfl
@[simp] theorem State.ack_ir (s : State) (n : Nat) : (s.ack n).ir = withLo s.ir (nextR (lo8 s.ir)) := rfl
@[simp] theorem State.ack_wz (s : State) (n : Nat) : (s.ack n).wz = s.wz := rfl
@[simp] theorem State.ack_iff1 (s : State) (n : Nat) : (s.ack n).iff1 = s.iff1 := rfl
@[simp] theorem State.ack_iff2 (s : State) (n : Nat) : (s.ack n).iff2 = s.iff2 := rfl
@[simp] theorem State.ack_im (s : State) (n : Nat) : (s.ack n).im = s.im := rfl
@[simp] theorem State.ack_halted (s : State) (n : Nat) : (s.ack n).halted = s.halted := rfl
@[simp] theorem State.ack_eiBlock (s : State) (n : Nat) : (s.ack n).eiBlock = s.eiBlock := rfl
@[simp] theorem State.ack_nmiPend (s : State) (n : Nat) : (s.ack n).nmiPend = s.nmiPend := rfl
@[simp] theorem State.ack_irqPend (s : State) (n : Nat) : (s.ack n).irqPend = s.irqPend := rfl
@[simp] theorem State.ack_mem (s : State) (n : Nat) : (s.ack n).mem = s.mem := rfl
@[simp] theorem State.ack_agent (s : State) (n : Nat) : (s.ack n).agent = s.agent := rfl
@[simp] theorem State.ack_draws (s : State) (n : Nat) : (s.ack n).draws = s.draws := rfl

/-! ### indexed -/

@[simp] theorem State.indexed_af (s : State) (x : Index) (d : Byte) : (s.indexed x d).af = s.af := by simp [State.indexed]
@[simp] theorem State.indexed_bc (s : State) (x : Index) (d : Byte) : (s.indexed x d).bc = s.bc := by simp [State.indexed]
@[simp] theorem State.indexed_de (s : State) (x : Index) (d : Byte) : (s.indexed x d).de = s.de := by simp [State.indexed]
@[simp] theorem State.indexed_hl (s : State) (x : Index) (d : Byte) : (s.indexed x d).hl = s.hl := by simp [State.indexed]
@[simp] theorem State.indexed_afAlt (s : State) (x : Index) (d : Byte) : (s.indexed x d).afAlt = s.afAlt := by simp [State.indexed]
@[simp] theorem State.indexed_bcAlt (s : State) (x : Index) (d : Byte) : (s.indexed x d).bcAlt = s.bcAlt := by simp [State.indexed]
@[simp] theorem State.indexed_deAlt (s : State) (x : Index) (d : Byte) : (s.indexed x d).deAlt = s.deAlt := by simp [State.indexed]
@[simp] theorem State.indexed_hlAlt (s : State) (x : Index) (d : Byte) : (s.indexed x d).hlAlt = s.hlAlt := by simp [State.indexed]
@[simp] theorem State.indexed_ix (s : State) (x : Index) (d : Byte) : (s.indexed x d).ix = s.ix := by simp [State.indexed]
@[simp] theorem State.indexed_iy (s : State) (x : Index) (d : Byte) : (s.indexed x d).iy = s.iy := by simp [State.indexed]
@[simp] theorem State.indexed_sp (s : State) (x : Index) (d : Byte) : (s.indexed x d).sp = s.sp := by simp [State.indexed]
@[simp] theorem State.indexed_pc (s : State) (x : Index) (d : Byte) : (s.indexed x d).pc = s.pc + 1 + 1 := by simp [State.indexed]
@[simp] theorem State.indexed_ir (s : State) (x : Index) (d : Byte) : (s.indexed x d).ir = withLo s.ir (nextR (lo8 s.ir)) := by simp [State.indexed]
@[simp] theorem State.indexed_iff1 (s : State) (x : Index) (d : Byte) : (s.indexed x d).iff1 = s.iff1 := by simp [State.indexed]
@[simp] theorem State.indexed_iff2 (s : State) (x : Index) (d : Byte) : (s.indexed x d).iff2 = s.iff2 := by simp [State.indexed]
@[simp] theorem State.indexed_im (s : State) (x : Index) (d : Byte) : (s.indexed x d).im = s.im := by simp [State.indexed]
@[simp] theorem State.indexed_halted (s : State) (x : Index) (d : Byte) : (s.indexed x d).halted = s.halted := by simp [State.indexed]
@[simp] theorem State.indexed_eiBlock (s : State) (x : Index) (d : Byte) : (s.indexed x d).eiBlock = s.eiBlock := by simp [State.indexed]
@[simp] theorem State.indexed_nmiPend (s : State) (x : Index) (d : Byte) : (s.indexed x d).nmiPend = s.nmiPend := by simp [State.indexed]
@[simp] theorem State.indexed_irqPend (s : State) (x : Index) (d : Byte) : (s.indexed x d).irqPend = s.irqPend := by simp [State.indexed]
@[simp] theorem State.indexed_mem (s : State) (x : Index) (d : Byte) : (s.indexed x d).mem = s.mem := by simp [State.indexed]
@[simp] theorem State.indexed_agent (s : State) (x : Index) (d : Byte) : (s.indexed x d).agent = s.agent := by simp [State.indexed]
@[simp] theorem State.indexed_draws (s : State) (x : Index) (d : Byte) : (s.indexed x d).draws = s.draws + 1 + 1 := by simp [State.indexed]

/-! ### setReg -/

@[simp] theorem State.setReg_afAlt (s : State) (r : Reg8) (v : Byte) : (s.setReg r v).afAlt = s.afAlt := by cases r <;> rfl
@[simp] theorem State.setReg_bcAlt (s : State) (r : Reg8) (v : Byte) : (s.setReg r v).bcAlt = s.bcAlt := by cases r <;> rfl
@[simp] theorem State.setReg_deAlt (s : State) (r : Reg8) (v : Byte) : (s.setReg r v).deAlt = s.deAlt := by cases r <;> rfl
@[simp] theorem State.setReg_hlAlt (s : State) (r : Reg8) (v : Byte) : (s.setReg r v).hlAlt = s.hlAlt := by cases r <;> rfl
@[simp] theorem State.setReg_ix (s : State) (r : Reg8) (v : Byte) : (s.setReg r v).ix = s.ix := by cases r <;> rfl
@[simp] theorem State.setReg_iy (s : State) (r : Reg8) (v : Byte) : (s.setReg r v).iy = s.iy := by cases r <;> rfl
@[simp] theorem State.setReg_sp (s : State) (r : Reg8) (v : Byte) : (s.setReg r v).sp = s.sp := by cases r <;> rfl
@[simp] theorem State.setReg_pc (s : State) (r : Reg8) (v : Byte) : (s.setReg r v).pc = s.pc := by cases r <;> rfl
@[simp] theorem State.setReg_ir (s : State) (r : Reg8) (v : Byte) : (s.setReg r v).ir = s.ir := by cases r <;> rfl
@[simp] theorem State.setReg_wz (s : State) (r : Reg8) (v : Byte) : (s.setReg r v).wz = s.wz := by cases r <;> rfl
@[simp] theorem State.setReg_iff1 (s : State) (r : Reg8) (v : Byte) : (s.setReg r v).iff1 = s.iff1 := by cases r <;> rfl
@[simp] theorem State.setReg_iff2 (s : State) (r : Reg8) (v : Byte) : (s.setReg r v).iff2 = s.iff2 := by cases r <;> rfl
@[simp] theorem State.setReg_im (s : State) (r : Reg8) (v : Byte) : (s.setReg r v).im = s.im := by cases r <;> rfl
@[simp] theorem State.setReg_halted (s : State) (r : Reg8) (v : Byte) : (s.setReg r v).halted = s.halted := by cases r <;> rfl
@[simp] theorem State.setReg_eiBlock (s : State) (r : Reg8) (v : Byte) : (s.setReg r v).eiBlock = s.eiBlock := by cases r <;> rfl
@[simp] theorem State.setReg_nmiPend (s : State) (r : Reg8) (v : Byte) : (s.setReg r v).nmiPend = s.nmiPend := by cases r <;> rfl
@[simp] theorem State.setReg_irqPend (s : State) (r : Reg8) (v : Byte) : (s.setReg r v).irqPend = s.irqPend := by cases r <;> rfl
@[simp] theorem State.setReg_t (s : State) (r : Reg8) (v : Byte) : (s.setReg r v).t = s.t := by cases r <;> rfl
@[simp] theorem State.setReg_mem (s : State) (r : Reg8) (v : Byte) : (s.setReg r v).mem = s.mem := by cases r <;> rfl
@[simp] theorem State.setReg_agent (s : State) (r : Reg8) (v : Byte) : (s.setReg r v).agent = s.agent := by cases r <;> rfl
@[simp] theorem State.setReg_bus (s : State) (r : Reg8) (v : Byte) : (s.setReg r v).bus = s.bus := by cases r <;> rfl
@[simp] theorem State.setReg_draws (s : State) (r : Reg8) (v : Byte) : (s.setReg r v).draws = s.draws := by cases r <;> rfl

/-! ### setRp -/

@[simp] theorem State.setRp_af (s : State) (p : Rp) (w : Word) : (s.setRp p w).af = s.af := by cases p <;> rfl
@[simp] theorem State.setRp_afAlt (s : State) (p : Rp) (w : Word) : (s.setRp p w).afAlt = s.afAlt := by cases p <;> rfl
@[simp] theorem State.setRp_bcAlt (s : State) (p : Rp) (w : Word) : (s.setRp p w).bcAlt = s.bcAlt := by cases p <;> rfl
@[simp] theorem State.setRp_deAlt (s : State) (p : Rp) (w : Word) : (s.setRp p w).deAlt = s.deAlt := by cases p <;> rfl
@[simp] theorem State.setRp_hlAlt (s : State) (p : Rp) (w : Word) : (s.setRp p w).hlAlt = s.hlAlt := by cases p <;> rfl
@[simp] theorem State.setRp_ix (s : State) (p : Rp) (w : Word) : (s.setRp p w).ix = s.ix := by cases p <;> rfl
@[simp] theorem State.setRp_iy (s : State) (p : Rp) (w : Word) : (s.setRp p w).iy = s.iy := by cases p <;> rfl
@[simp] theorem State.setRp_pc (s : State) (p : Rp) (w : Word) : (s.setRp p w).pc = s.pc := by cases p <;> rfl
@[simp] theorem State.setRp_ir (s : State) (p : Rp) (w : Word) : (s.setRp p w).ir = s.ir := by cases p <;> rfl
@[simp] theorem State.setRp_wz (s : State) (p : Rp) (w : Word) : (s.setRp p w).wz = s.wz := by cases p <;> rfl
@[simp] theorem State.setRp_iff1 (s : State) (p : Rp) (w : Word) : (s.setRp p w).iff1 = s.iff1 := by cases p <;> rfl
@[simp] theorem State.setRp_iff2 (s : State) (p : Rp) (w : Word) : (s.setRp p w).iff2 = s.iff2 := by cases p <;> rfl
@[simp] theorem State.setRp_im (s : State) (p : Rp) (w : Word) : (s.setRp p w).im = s.im := by cases p <;> rfl
@[simp] theorem State.setRp_halted (s : State) (p : Rp) (w : Word) : (s.setRp p w).halted = s.halted := by cases p <;> rfl
@[simp] theorem State.setRp_eiBlock (s : State) (p : Rp) (w : Word) : (s.setRp p w).eiBlock = s.eiBlock := by cases p <;> rfl
@[simp] theorem State.setRp_nmiPend (s : State) (p : Rp) (w : Word) : (s.setRp p w).nmiPend = s.nmiPend := by cases p <;> rfl
@[simp] theorem State.setRp_irqPend (s : State) (p : Rp) (w : Word) : (s.setRp p w).irqPend = s.irqPend := by cases p <;> rfl
@[simp] theorem State.setRp_t (s : State) (p : Rp) (w : Word) : (s.setRp p w).t = s.t := by cases p <;> rfl
@[simp] theorem State.setRp_mem (s : State) (p : Rp) (w : Word) : (s.setRp p w).mem = s.mem := by cases p <;> rfl
@[simp] theorem State.setRp_agent (s : State) (p : Rp) (w : Word) : (s.setRp p w).agent = s.agent := by cases p <;> rfl
@[simp] theorem State.setRp_bus (s : State) (p : Rp) (w : Word) : (s.setRp p w).bus = s.bus := by cases p <;> rfl
@[simp] theorem State.setRp_draws (s : State) (p : Rp) (w : Word) : (s.setRp p w).draws = s.draws := by cases p <;> rfl

/-! ### setRp2 -/

@[simp] theorem State.setRp2_afAlt (s : State) (p : Rp2) (w : Word) : (s.setRp2 p w).afAlt = s.afAlt := by cases p <;> rfl
@[simp] theorem State.setRp2_bcAlt (s : State) (p : Rp2) (w : Word) : (s.setRp2 p w).bcAlt = s.bcAlt := by cases p <;> rfl
@[simp] theorem State.setRp2_deAlt (s : State) (p : Rp2) (w : Word) : (s.setRp2 p w).deAlt = s.deAlt := by cases p <;> rfl
@[simp] theorem State.setRp2_hlAlt (s : State) (p : Rp2) (w : Word) : (s.setRp2 p w).hlAlt = s.hlAlt := by cases p <;> rfl
@[simp] theorem State.setRp2_ix (s : State) (p : Rp2) (w : Word) : (s.setRp2 p w).ix = s.ix := by cases p <;> rfl
@[simp] theorem State.setRp2_iy (s : State) (p : Rp2) (w : Word) : (s.setRp2 p w).iy = s.iy := by cases p <;> rfl
@[simp] theorem State.setRp2_sp (s : State) (p : Rp2) (w : Word) : (s.setRp2 p w).sp = s.sp := by cases p <;> rfl
@[simp] theorem State.setRp2_pc (s : State) (p : Rp2) (w : Word) : (s.setRp2 p w).pc = s.pc := by cases p <;> rfl
@[simp] theorem State.setRp2_ir (s : State) (p : Rp2) (w : Word) : (s.setRp2 p w).ir = s.ir := by cases p <;> rfl
@[simp] theorem State.setRp2_wz (s : State) (p : Rp2) (w : Word) : (s.setRp2 p w).wz = s.wz := by cases p <;> rfl
@[simp] theorem State.setRp2_iff1 (s : State) (p : Rp2) (w : Word) : (s.setRp2 p w).iff1 = s.iff1 := by cases p <;> rfl
@[simp] theorem State.setRp2_iff2 (s : State) (p : Rp2) (w : Word) : (s.setRp2 p w).iff2 = s.iff2 := by cases p <;> rfl
@[simp] theorem State.setRp2_im (s : State) (p : Rp2) (w : Word) : (s.setRp2 p w).im = s.im := by cases p <;> rfl
@[simp] theorem State.setRp2_halted (s : State) (p : Rp2) (w : Word) : (s.setRp2 p w).halted = s.halted := by cases p <;> rfl
@[simp] theorem State.setRp2_eiBlock (s : State) (p : Rp2) (w : Word) : (s.setRp2 p w).eiBlock = s.eiBlock := by cases p <;> rfl
@[simp] theorem State.setRp2_nmiPend (s : State) (p : Rp2) (w : Word) : (s.setRp2 p w).nmiPend = s.nmiPend := by cases p <;> rfl
@[simp] theorem State.setRp2_irqPend (s : State) (p : Rp2) (w : Word) : (s.setRp2 p w).irqPend = s.irqPend := by cases p <;> rfl
@[simp] theorem State.setRp2_t (s : State) (p : Rp2) (w : Word) : (s.setRp2 p w).t = s.t := by cases p <;> rfl
@[simp] theorem State.setRp2_mem (s : State) (p : Rp2) (w : Word) : (s.setRp2 p w).mem = s.mem := by cases p <;> rfl
@[simp] theorem State.setRp2_agent (s : State) (p : Rp2) (w : Word) : (s.setRp2 p w).agent = s.agent := by cases p <;> rfl
@[simp] theorem State.setRp2_bus (s : State) (p : Rp2) (w : Word) : (s.setRp2 p w).bus = s.bus := by cases p <;> rfl
@[simp] theorem State.setRp2_draws (s : State) (p : Rp2) (w : Word) : (s.setRp2 p w).draws = s.draws := by cases p <;> rfl

/-! ### setIdx -/

@[simp] theorem State.setIdx_af (s : State) (x : Index) (w : Word) : (s.setIdx x w).af = s.af := by cases x <;> rfl
@[simp] theorem State.setIdx_bc (s : State) (x : Index) (w : Word) : (s.setIdx x w).bc = s.bc := by cases x <;> rfl
@[simp] theorem State.setIdx_de (s : State) (x : Index) (w : Word) : (s.setIdx x w).de = s.de := by cases x <;> rfl
@[simp] theorem State.setIdx_hl (s : State) (x : Index) (w : Word) : (s.setIdx x w).hl = s.hl := by cases x <;> rfl
@[simp] theorem State.setIdx_afAlt (s : State) (x : Index) (w : Word) : (s.setIdx x w).afAlt = s.afAlt := by cases x <;> rfl
@[simp] theorem State.setIdx_bcAlt (s : State) (x : Index) (w : Word) : (s.setIdx x w).bcAlt = s.bcAlt := by cases x <;> rfl
@[simp] theorem State.setIdx_deAlt (s : State) (x : Index) (w : Word) : (s.setIdx x w).deAlt = s.deAlt := by cases x <;> rfl
@[simp] theorem State.setIdx_hlAlt (s : State) (x : Index) (w : Word) : (s.setIdx x w).hlAlt = s.hlAlt := by cases x <;> rfl
@[simp] theorem State.setIdx_sp (s : State) (x : Index) (w : Word) : (s.setIdx x w).sp = s.sp := by cases x <;> rfl
@[simp] theorem State.setIdx_pc (s : State) (x : Index) (w : Word) : (s.setIdx x w).pc = s.pc := by cases x <;> rfl
@[simp] theorem State.setIdx_ir (s : State) (x : Index) (w : Word) : (s.setIdx x w).ir = s.ir := by cases x <;> rfl
@[simp] theorem State.setIdx_wz (s : State) (x : Index) (w : Word) : (s.setIdx x w).wz = s.wz := by cases x <;> rfl
@[simp] theorem State.setIdx_iff1 (s : State) (x : Index) (w : Word) : (s.setIdx x w).iff1 = s.iff1 := by cases x <;> rfl
@[simp] theorem State.setIdx_iff2 (s : State) (x : Index) (w : Word) : (s.setIdx x w).iff2 = s.iff2 := by cases x <;> rfl
@[simp] theorem State.setIdx_im (s : State) (x : Index) (w : Word) : (s.setIdx x w).im = s.im := by cases x <;> rfl
@[simp] theorem State.setIdx_halted (s : State) (x : Index) (w : Word) : (s.setIdx x w).halted = s.halted := by cases x <;> rfl
@[simp] theorem State.setIdx_eiBlock (s : State) (x : Index) (w : Word) : (s.setIdx x w).eiBlock = s.eiBlock := by cases x <;> rfl
@[simp] theorem State.setIdx_nmiPend (s : State) (x : Index) (w : Word) : (s.setIdx x w).nmiPend = s.nmiPend := by cases x <;> rfl
@[simp] theorem State.setIdx_irqPend (s : State) (x : Index) (w : Word) : (s.setIdx x w).irqPend = s.irqPend := by cases x <;> rfl
@[simp] theorem State.setIdx_t (s : State) (x : Index) (w : Word) : (s.setIdx x w).t = s.t := by cases x <;> rfl
@[simp] theorem State.setIdx_mem (s : State) (x : Index) (w : Word) : (s.setIdx x w).mem = s.mem := by cases x <;> rfl
@[simp] theorem State.setIdx_agent (s : State) (x : Index) (w : Word) : (s.setIdx x w).agent = s.agent := by cases x <;> rfl
@[simp] theorem State.setIdx_bus (s : State) (x : Index) (w : Word) : (s.setIdx x w).bus = s.bus := by cases x <;> rfl
@[simp] theorem State.setIdx_draws (s : State) (x : Index) (w : Word) : (s.setIdx x w).draws = s.draws := by cases x <;> rfl

/-! ### setHalf -/

@[simp] theorem State.setHalf_af (s : State) (x : Index) (h : Half) (v : Byte) : (s.setHalf x h v).af = s.af := by cases x <;> cases h <;> rfl
@[simp] theorem State.setHalf_bc (s : State) (x : Index) (h : Half) (v : Byte) : (s.setHalf x h v).bc = s.bc := by cases x <;> cases h <;> rfl
@[simp] theorem State.setHalf_de (s : State) (x : Index) (h : Half) (v : Byte) : (s.setHalf x h v).de = s.de := by cases x <;> cases h <;> rfl
@[simp] theorem State.setHalf_hl (s : State) (x : Index) (h : Half) (v : Byte) : (s.setHalf x h v).hl = s.hl := by cases x <;> cases h <;> rfl
@[simp] theorem State.setHalf_afAlt (s : State) (x : Index) (h : Half) (v : Byte) : (s.setHalf x h v).afAlt = s.afAlt := by cases x <;> cases h <;> rfl
@[simp] theorem State.setHalf_bcAlt (s : State) (x : Index) (h : Half) (v : Byte) : (s.setHalf x h v).bcAlt = s.bcAlt := by cases x <;> cases h <;> rfl
@[simp] theorem State.setHalf_deAlt (s : State) (x : Index) (h : Half) (v : Byte) : (s.setHalf x h v).deAlt = s.deAlt := by cases x <;> cases h <;> rfl
@[simp] theorem State.setHalf_hlAlt (s : State) (x : Index) (h : Half) (v : Byte) : (s.setHalf x h v).hlAlt = s.hlAlt := by cases x <;> cases h <;> rfl
@[simp] theorem State.setHalf_sp (s : State) (x : Index) (h : Half) (v : Byte) : (s.setHalf x h v).sp = s.sp := by cases x <;> cases h <;> rfl
@[simp] theorem State.setHalf_pc (s : State) (x : Index) (h : Half) (v : Byte) : (s.setHalf x h v).pc = s.pc := by cases x <;> cases h <;> rfl
@[simp] theorem State.setHalf_ir (s : State) (x : Index) (h : Half) (v : Byte) : (s.setHalf x h v).ir = s.ir := by cases x <;> cases h <;> rfl
@[simp] theorem State.setHalf_wz (s : State) (x : Index) (h : Half) (v : Byte) : (s.setHalf x h v).wz = s.wz := by cases x <;> cases h <;> rfl
@[simp] theorem State.setHalf_iff1 (s : State) (x : Index) (h : Half) (v : Byte) : (s.setHalf x h v).iff1 = s.iff1 := by cases x <;> cases h <;> rfl
@[simp] theorem State.setHalf_iff2 (s : State) (x : Index) (h : Half) (v : Byte) : (s.setHalf x h v).iff2 = s.iff2 := by cases x <;> cases h <;> rfl
@[simp] theorem State.setHalf_im (s : State) (x : Index) (h : Half) (v : Byte) : (s.setHalf x h v).im = s.im := by cases x <;> cases h <;> rfl
@[simp] theorem State.setHalf_halted (s : State) (x : Index) (h : Half) (v : Byte) : (s.setHalf x h v).halted = s.halted := by cases x <;> cases h <;> rfl
@[simp] theorem State.setHalf_eiBlock (s : State) (x : Index) (h : Half) (v : Byte) : (s.setHalf x h v).eiBlock = s.eiBlock := by cases x <;> cases h <;> rfl
@[simp] theorem State.setHalf_nmiPend (s : State) (x : Index) (h : Half) (v : Byte) : (s.setHalf x h v).nmiPend = s.nmiPend := by cases x <;> cases h <;> rfl
@[simp] theorem State.setHalf_irqPend (s : State) (x : Index) (h : Half) (v : Byte) : (s.setHalf x h v).irqPend = s.irqPend := by cases x <;> cases h <;> rfl
@[simp] theorem State.setHalf_t (s : State) (x : Index) (h : Half) (v : Byte) : (s.setHalf x h v).t = s.t := by cases x <;> cases h <;> rfl
@[simp] theorem State.setHalf_mem (s : State) (x : Index) (h : Half) (v : Byte) : (s.setHalf x h v).mem = s.mem := by cases x <;> cases h <;> rfl
@[simp] theorem State.setHalf_agent (s : State) (x : Index) (h : Half) (v : Byte) : (s.setHalf x h v).agent = s.agent := by cases x <;> cases h <;> rfl
@[simp] theorem State.setHalf_bus (s : State) (x : Index) (h : Half) (v : Byte) : (s.setHalf x h v).bus = s.bus := by cases x <;> cases h <;> rfl
@[simp] theorem State.setHalf_draws (s : State) (x : Index) (h : Half) (v : Byte) : (s.setHalf x h v).draws = s.draws := by cases x <;> cases h <;> rfl

/-! ### exchangeTop -/

@[simp] theorem State.exchangeTop_af (s : State) (w : Word) : (s.exchangeTop w).af = s.af := by simp [State.exchangeTop]
@[simp] theorem State.exchangeTop_bc (s : State) (w : Word) : (s.exchangeTop w).bc = s.bc := by simp [State.exchangeTop]
@[simp] theorem State.exchangeTop_de (s : State) (w : Word) : (s.exchangeTop w).de = s.de := by simp [State.exchangeTop]
@[simp] theorem State.exchangeTop_hl (s : State) (w : Word) : (s.exchangeTop w).hl = s.hl := by simp [State.exchangeTop]
@[simp] theorem State.exchangeTop_afAlt (s : State) (w : Word) : (s.exchangeTop w).afAlt = s.afAlt := by simp [State.exchangeTop]
@[simp] theorem State.exchangeTop_bcAlt (s : State) (w : Word) : (s.exchangeTop w).bcAlt = s.bcAlt := by simp [State.exchangeTop]
@[simp] theorem State.exchangeTop_deAlt (s : State) (w : Word) : (s.exchangeTop w).deAlt = s.deAlt := by simp [State.exchangeTop]
@[simp] theorem State.exchangeTop_hlAlt (s : State) (w : Word) : (s.exchangeTop w).hlAlt = s.hlAlt := by simp [State.exchangeTop]
@[simp] theorem State.exchangeTop_ix (s : State) (w : Word) : (s.exchangeTop w).ix = s.ix := by simp [State.exchangeTop]
@[simp] theorem State.exchangeTop_iy (s : State) (w : Word) : (s.exchangeTop w).iy = s.iy := by simp [State.exchangeTop]
@[simp] theorem State.exchangeTop_sp (s : State) (w : Word) : (s.exchangeTop w).sp = s.sp := by simp [State.exchangeTop]
@[simp] theorem State.exchangeTop_pc (s : State) (w : Word) : (s.exchangeTop w).pc = s.pc := by simp [State.exchangeTop]
@[simp] theorem State.exchangeTop_ir (s : State) (w : Word) : (s.exchangeTop w).ir = s.ir := by simp [State.exchangeTop]
@[simp] theorem State.exchangeTop_wz (s : State) (w : Word) : (s.exchangeTop w).wz = s.wz := by simp [State.exchangeTop]
@[simp] theorem State.exchangeTop_iff1 (s : State) (w : Word) : (s.exchangeTop w).iff1 = s.iff1 := by simp [State.exchangeTop]
@[simp] theorem State.exchangeTop_iff2 (s : State) (w : Word) : (s.exchangeTop w).iff2 = s.iff2 := by simp [State.exchangeTop]
@[simp] theorem State.exchangeTop_im (s : State) (w : Word) : (s.exchangeTop w).im = s.im := by simp [State.exchangeTop]
@[simp] theorem State.exchangeTop_halted (s : State) (w : Word) : (s.exchangeTop w).halted = s.halted := by simp [State.exchangeTop]
@[simp] theorem State.exchangeTop_eiBlock (s : State) (w : Word) : (s.exchangeTop w).eiBlock = s.eiBlock := by simp [State.exchangeTop]
@[simp] theorem State.exchangeTop_nmiPend (s : State) (w : Word) : (s.exchangeTop w).nmiPend = s.nmiPend := by simp [State.exchangeTop]
@[simp] theorem State.exchangeTop_irqPend (s : State) (w : Word) : (s.exchangeTop w).irqPend = s.irqPend := by simp [State.exchangeTop]
@[simp] theorem State.exchangeTop_mem (s : State) (w : Word) : (s.exchangeTop w).mem = (s.mem.write (s.sp + 1).toNat (hi8 w)).write s.sp.toNat (lo8 w) := by simp [State.exchangeTop]
@[simp] theorem State.exchangeTop_agent (s : State) (w : Word) : (s.exchangeTop w).agent = s.agent := by simp [State.exchangeTop]
@[simp] theorem State.exchangeTop_draws (s : State) (w : Word) : (s.exchangeTop w).draws = s.draws + 1 + 1 := by simp [State.exchangeTop]

/-! ### T and the bus trace -/

/-- T and the bus trace of a state. -/
def State.clock (s : State) : Nat × List BusEvent := (s.t, s.bus)

@[simp] theorem State.clock_eta (s : State) : (s.t, s.bus) = s.clock := rfl

@[simp] theorem State.refresh_clock (s : State) : (s.refresh).clock = s.clock := rfl
@[simp] theorem State.goto_clock (s : State) (a : Word) : (s.goto a).clock = s.clock := rfl
@[simp] theorem State.setA_clock (s : State) (v : Byte) : (s.setA v).clock = s.clock := rfl
@[simp] theorem State.setF_clock (s : State) (v : Byte) : (s.setF v).clock = s.clock := rfl
@[simp] theorem State.setAF_clock (s : State) (v : Byte × Byte) : (s.setAF v).clock = s.clock := rfl
@[simp] theorem State.setB_clock (s : State) (v : Byte) : (s.setB v).clock = s.clock := rfl
@[simp] theorem State.setReg_clock (s : State) (r : Reg8) (v : Byte) : (s.setReg r v).clock = s.clock := by cases r <;> rfl
@[simp] theorem State.setRp_clock (s : State) (p : Rp) (w : Word) : (s.setRp p w).clock = s.clock := by cases p <;> rfl
@[simp] theorem State.setRp2_clock (s : State) (p : Rp2) (w : Word) : (s.setRp2 p w).clock = s.clock := by cases p <;> rfl
@[simp] theorem State.setIdx_clock (s : State) (x : Index) (w : Word) : (s.setIdx x w).clock = s.clock := by cases x <;> rfl
@[simp] theorem State.setHalf_clock (s : State) (x : Index) (h : Half) (v : Byte) : (s.setHalf x h v).clock = s.clock := by cases x <;> cases h <;> rfl

end Sys2Proof.Machine
end

