-- ==== Sys2Proof/Laws/Cycles.lean ====
section
/-! SUPPORT. T, the bus trace and the answers taken: each shared operation runs a list of cycles, so that the time and the
trace of a meaning come out as one Cycles line. With the lemmas of Laws/State.lean for the other fields, two states are compared by
`State.ext_clock`. -/

namespace Sys2Proof.Machine

theorem State.ext_clock {s s' : State} (hc : s.clock = s'.clock) (haf : s.af = s'.af) (hbc : s.bc = s'.bc)
    (hde : s.de = s'.de) (hhl : s.hl = s'.hl) (h1 : s.afAlt = s'.afAlt) (h2 : s.bcAlt = s'.bcAlt)
    (h3 : s.deAlt = s'.deAlt) (h4 : s.hlAlt = s'.hlAlt) (hix : s.ix = s'.ix) (hiy : s.iy = s'.iy)
    (hsp : s.sp = s'.sp) (hpc : s.pc = s'.pc) (hir : s.ir = s'.ir) (hwz : s.wz = s'.wz)
    (hi1 : s.iff1 = s'.iff1) (hi2 : s.iff2 = s'.iff2) (him : s.im = s'.im) (hh : s.halted = s'.halted)
    (he : s.eiBlock = s'.eiBlock) (hn : s.nmiPend = s'.nmiPend) (hq : s.irqPend = s'.irqPend)
    (hm : s.mem = s'.mem) (hg : s.agent = s'.agent) (hd : s.draws = s'.draws) : s = s' := by
  have ht : s.t = s'.t := congrArg Prod.fst hc
  have hb : s.bus = s'.bus := congrArg Prod.snd hc
  cases s
  cases s'
  simp_all

@[simp] theorem clockAfter_nil (p : Nat × List BusEvent) : clockAfter [] p = p := rfl

theorem clockAfter_append (cs ds : List Cycle) (p : Nat × List BusEvent) :
    clockAfter (cs ++ ds) p = clockAfter ds (clockAfter cs p) := by
  induction cs generalizing p with
  | nil => rfl
  | cons c cs ih => exact ih _

/-- Lists of cycles one after the other are one list. -/
@[simp] theorem clockAfter_clockAfter (cs ds : List Cycle) (p : Nat × List BusEvent) :
    clockAfter ds (clockAfter cs p) = clockAfter (cs ++ ds) p := (clockAfter_append cs ds p).symm

@[simp] theorem State.through_clock (s : State) (cs : List Cycle) : (s.through cs).clock = clockAfter cs s.clock := rfl

/-- The clock of a state written out field by field. -/
@[simp] theorem State.clock_mk (af bc de hl af' bc' de' hl' ix iy sp pc ir wz : Word) (i1 i2 : Bool) (im : IntMode)
    (h e n q : Bool) (t : Nat) (m : Memory) (g : BusAgent) (b : List BusEvent) (d : Nat) :
    (State.mk af bc de hl af' bc' de' hl' ix iy sp pc ir wz i1 i2 im h e n q t m g b d).clock = (t, b) := rfl

/-! ### The answers of a list of cycles -/

@[simp] theorem answersOf_fetch : answersOf .fetch = 1 := rfl
@[simp] theorem answersOf_read : answersOf .read = 1 := rfl
@[simp] theorem answersOf_ioRead : answersOf .ioRead = 1 := rfl
@[simp] theorem answersOf_write : answersOf .write = 0 := rfl
@[simp] theorem answersOf_ioWrite : answersOf .ioWrite = 0 := rfl
@[simp] theorem answersOf_internal : answersOf .internal = 0 := rfl
@[simp] theorem answersOf_ack : answersOf .ack = 0 := rfl

@[simp] theorem State.cFetch_kind (s : State) (a : Word) : (s.cFetch a).kind = .fetch := rfl
@[simp] theorem State.cRead_kind (s : State) (k : Nat) (a : Word) : (s.cRead k a).kind = .read := rfl
@[simp] theorem State.cIn_kind (s : State) (k : Nat) (p : Word) : (s.cIn k p).kind = .ioRead := rfl
@[simp] theorem State.cAck_kind (s : State) (n : Nat) : (s.cAck n).kind = .ack := rfl
@[simp] theorem cWrite_kind (a : Word) (v : Byte) : (cWrite a v).kind = .write := rfl
@[simp] theorem cOut_kind (p : Word) (v : Byte) : (cOut p v).kind = .ioWrite := rfl

@[simp] theorem answers_nil : answers [] = 0 := rfl

@[simp] theorem answers_cons (c : Cycle) (cs : List Cycle) : answers (c :: cs) = answersOf c.kind + answers cs := by
  simp [answers]

@[simp] theorem answers_append (cs ds : List Cycle) : answers (cs ++ ds) = answers cs + answers ds := by
  simp [answers]

@[simp] theorem answers_cIdle (a : Word) (n : Nat) : answers (cIdle a n) = 0 := by
  induction n with
  | zero => rfl
  | succ n ih => simpa [cIdle, List.replicate_succ] using ih

/-- The answers still to come depend on the bus, its memory and how many answers it has given. -/
theorem State.reply_shift {s u : State} {k n : Nat} (a : Word) (hg : u.agent = s.agent) (hm : u.mem = s.mem)
    (hd : u.draws = s.draws + n) : u.reply k a = s.reply (n + k) a := by
  simp [State.reply, hg, hm, hd, Nat.add_assoc]

/-- In plain memory an answer is the byte stored. -/
theorem State.reply_plain {s : State} (k : Nat) (a : Word) (h : s.agent = .plainMemory) :
    s.reply k a = s.mem.read a.toNat := by
  simp [State.reply, memoryReply, h]

/-- On any other bus it is a draw. -/
theorem State.reply_any {s : State} (k : Nat) (a : Word) (h : s.agent = .anyBus) :
    s.reply k a = Config.memoryAnswer (s.draws + k) a := by
  simp [State.reply, memoryReply, h]

@[simp] theorem State.fetchAt_reply (s : State) (a : Word) (k : Nat) (x : Word) :
    (s.fetchAt a).reply k x = s.reply (1 + k) x := State.reply_shift x rfl rfl rfl
@[simp] theorem State.readAt_reply (s : State) (a : Word) (k : Nat) (x : Word) :
    (s.readAt a).reply k x = s.reply (1 + k) x := State.reply_shift x rfl rfl rfl
@[simp] theorem State.opFetch_reply (s : State) (k : Nat) (x : Word) :
    (s.opFetch).reply k x = s.reply (1 + k) x := State.reply_shift x rfl rfl rfl
@[simp] theorem State.operand_reply (s : State) (k : Nat) (x : Word) :
    (s.operand).reply k x = s.reply (1 + k) x := State.reply_shift x rfl rfl rfl
@[simp] theorem State.ioReadAt_reply (s : State) (p : Word) (k : Nat) (x : Word) :
    (s.ioReadAt p).reply k x = s.reply (1 + k) x := State.reply_shift x rfl rfl rfl
@[simp] theorem State.popByte_reply (s : State) (k : Nat) (x : Word) :
    (s.popByte).reply k x = s.reply (1 + k) x := State.reply_shift x rfl rfl rfl
@[simp] theorem State.ioWriteAt_reply (s : State) (p : Word) (v : Byte) (k : Nat) (x : Word) :
    (s.ioWriteAt p v).reply k x = s.reply k x := rfl
@[simp] theorem State.ack_reply (s : State) (n : Nat) (k : Nat) (x : Word) :
    (s.ack n).reply k x = s.reply k x := rfl
@[simp] theorem State.readWordAt_reply (s : State) (a : Word) (k : Nat) (y : Word) :
    (s.readWordAt a).reply k y = s.reply (2 + k) y := State.reply_shift y (by simp) (by simp) (by simp)
@[simp] theorem State.pop_reply (s : State) (k : Nat) (y : Word) :
    (s.pop).reply k y = s.reply (2 + k) y := State.reply_shift y (by simp) (by simp) (by simp)
@[simp] theorem State.popPc_reply (s : State) (k : Nat) (y : Word) :
    (s.popPc).reply k y = s.reply (2 + k) y := State.reply_shift y (by simp) (by simp) (by simp)
@[simp] theorem State.indexed_reply (s : State) (x : Index) (d : Byte) (k : Nat) (y : Word) :
    (s.indexed x d).reply k y = s.reply (2 + k) y := State.reply_shift y (by simp) (by simp) (by simp)
@[simp] theorem State.internal_reply (s : State) (a : Word) (n : Nat) (k : Nat) (x : Word) :
    (s.internal a n).reply k x = s.reply k x := by simp [State.reply]

/-! ### The cycles of each shared operation -/

@[simp] theorem State.transact_clock (s : State) (k : BusKind) (a : Word) (n : Nat) (v : Option Byte) :
    (s.transact k a n v).clock = clockAfter [⟨k, a, n, v⟩] s.clock := rfl

@[simp] theorem State.fetchAt_clock (s : State) (a : Word) : (s.fetchAt a).clock = clockAfter [s.cFetch a] s.clock := rfl

@[simp] theorem State.readAt_clock (s : State) (a : Word) : (s.readAt a).clock = clockAfter [s.cRead 0 a] s.clock := rfl

@[simp] theorem State.writeAt_clock (s : State) (a : Word) (v : Byte) :
    (s.writeAt a v).clock = clockAfter [cWrite a v] s.clock := rfl

@[simp] theorem State.ioReadAt_clock (s : State) (p : Word) : (s.ioReadAt p).clock = clockAfter [s.cIn 0 p] s.clock := rfl

@[simp] theorem State.ioWriteAt_clock (s : State) (p : Word) (v : Byte) :
    (s.ioWriteAt p v).clock = clockAfter [cOut p v] s.clock := rfl

@[simp] theorem State.ack_clock (s : State) (n : Nat) : (s.ack n).clock = clockAfter [s.cAck n] s.clock := rfl

@[simp] theorem State.opFetch_clock (s : State) : s.opFetch.clock = clockAfter [s.cFetch s.pc] s.clock := rfl

@[simp] theorem State.operand_clock (s : State) : s.operand.clock = clockAfter [s.cRead 0 s.pc] s.clock := rfl

@[simp] theorem State.internal_clock (s : State) (a : Word) (n : Nat) :
    (s.internal a n).clock = clockAfter (cIdle a n) s.clock := by
  induction n generalizing s with
  | zero => rfl
  | succ n ih =>
    rw [State.internal, ih, State.transact_clock, clockAfter_clockAfter]
    rfl

@[simp] theorem State.readWordAt_clock (s : State) (a : Word) :
    (s.readWordAt a).clock = clockAfter [s.cRead 0 a, s.cRead 1 (a + 1)] s.clock := by
  simp [State.readWordAt, State.cRead, State.reply]

@[simp] theorem State.writeWordAt_clock (s : State) (a w : Word) :
    (s.writeWordAt a w).clock = clockAfter [cWrite a (lo8 w), cWrite (a + 1) (hi8 w)] s.clock := rfl

@[simp] theorem State.pushByte_clock (s : State) (v : Byte) :
    (s.pushByte v).clock = clockAfter [cWrite (s.sp - 1) v] s.clock := rfl

@[simp] theorem State.push_clock (s : State) (w : Word) :
    (s.push w).clock = clockAfter [cWrite (s.sp - 1) (hi8 w), cWrite (s.sp - 1 - 1) (lo8 w)] s.clock := by
  simp [State.push]

@[simp] theorem State.popByte_clock (s : State) : s.popByte.clock = clockAfter [s.cRead 0 s.sp] s.clock := rfl

@[simp] theorem State.pop_clock (s : State) : s.pop.clock = clockAfter [s.cRead 0 s.sp, s.cRead 1 (s.sp + 1)] s.clock := by
  simp [State.pop, State.cRead, State.reply]

@[simp] theorem State.popPc_clock (s : State) :
    s.popPc.clock = clockAfter [s.cRead 0 s.sp, s.cRead 1 (s.sp + 1)] s.clock := by
  simp [State.popPc]

@[simp] theorem State.modifyAt_clock (s : State) (a : Word) (g : Byte → Byte) :
    (s.modifyAt a g).clock = clockAfter (s.cRead 0 a :: cIdle a 1 ++ [cWrite a (g (s.byteAt a))]) s.clock := by
  simp [State.modifyAt]

@[simp] theorem State.exchangeTop_clock (s : State) (w : Word) :
    (s.exchangeTop w).clock = clockAfter (s.cRead 0 s.sp :: s.cRead 1 (s.sp + 1) :: cIdle (s.sp + 1) 1
      ++ [cWrite (s.sp + 1) (hi8 w), cWrite s.sp (lo8 w)] ++ cIdle s.sp 2) s.clock := by
  simp [State.exchangeTop, State.cRead, State.reply]

@[simp] theorem State.indexed_clock (s : State) (x : Index) (d : Byte) :
    (s.indexed x d).clock = clockAfter (s.cFetch s.pc :: s.cRead 1 (s.pc + 1) :: cIdle (s.pc + 1) 5) s.clock := by
  simp [State.indexed, State.cRead, State.reply]

end Sys2Proof.Machine
end

