-- ==== Sys2Proof/Laws/Memory.lean ====
section
/-! SUPPORT. The plain memory: what a read finds after an erase and an insert, and that both keep the canonical form
(notes/assumptions/5). -/

namespace Sys2Proof.Machine

theorem Memory.read_erase (m : Memory) (a b : Nat) :
    (m.erase a).read b = if b = a then Config.unlistedByte else m.read b := by
  induction m with
  | nil => simp [Memory.erase, Memory.read]
  | cons c m ih =>
    obtain ⟨k, v⟩ := c
    by_cases hk : k = a
    · subst hk
      simp only [Memory.erase, if_true, ih, Memory.read]
      by_cases hb : b = k <;> simp [hb, eq_comm]
    · simp only [Memory.erase, hk, if_false, Memory.read, ih]
      by_cases hb : k = b
      · subst hb
        simp [hk]
      · simp [hb]

theorem Memory.read_insert (m : Memory) (a : Nat) (v : Byte) (b : Nat) (h : ∀ c ∈ m, c.1 ≠ a) :
    (m.insert a v).read b = if b = a then v else m.read b := by
  induction m with
  | nil => simp [Memory.insert, Memory.read, eq_comm]
  | cons c m ih =>
    obtain ⟨k, w⟩ := c
    have hk : k ≠ a := h (k, w) (by simp)
    have ih' := ih (fun c hc => h c (by simp [hc]))
    by_cases hlt : a < k
    · simp [Memory.insert, Memory.read, hlt, eq_comm]
    · simp only [Memory.insert, hlt, if_false, Memory.read, ih']
      by_cases hb : k = b
      · subst hb
        simp [hk]
      · simp [hb]

/-- An erased address is listed nowhere. -/
theorem Memory.mem_erase {m : Memory} {a : Nat} {c : Host.Cell} (h : c ∈ m.erase a) : c ∈ m ∧ c.1 ≠ a := by
  induction m with
  | nil => simp [Memory.erase] at h
  | cons d m ih =>
    obtain ⟨k, v⟩ := d
    by_cases hk : k = a
    · simp only [Memory.erase, hk, if_true] at h
      exact ⟨by simp [(ih h).1], (ih h).2⟩
    · simp only [Memory.erase, hk, if_false, List.mem_cons] at h
      rcases h with rfl | h
      · exact ⟨by simp, hk⟩
      · exact ⟨by simp [(ih h).1], (ih h).2⟩

/-- What an insert lists. -/
theorem Memory.mem_insert {m : Memory} {a : Nat} {v : Byte} {c : Host.Cell} :
    c ∈ m.insert a v ↔ c = (a, v) ∨ c ∈ m := by
  induction m with
  | nil => simp [Memory.insert]
  | cons d m ih =>
    obtain ⟨k, w⟩ := d
    by_cases hlt : a < k
    · simp [Memory.insert, hlt]
    · simp only [Memory.insert, hlt, if_false, List.mem_cons, ih]
      tauto

/-- The canonical form of a list with a first entry. -/
theorem Memory.wf_cons (a : Nat) (v : Byte) (m : Memory) :
    Memory.wf ((a, v) :: m) = true ↔
      a < 65536 ∧ v ≠ Config.unlistedByte ∧ (∀ c ∈ m, a < c.1) ∧ Memory.wf m = true := by
  simp [Memory.wf, and_assoc]

theorem Memory.wf_erase {m : Memory} (a : Nat) (h : m.wf = true) : (m.erase a).wf = true := by
  induction m with
  | nil => rfl
  | cons c m ih =>
    obtain ⟨k, v⟩ := c
    rw [Memory.wf_cons] at h
    obtain ⟨h1, h2, h3, h4⟩ := h
    by_cases hk : k = a
    · simpa [Memory.erase, hk] using ih h4
    · rw [Memory.erase, if_neg hk, Memory.wf_cons]
      exact ⟨h1, h2, fun c hc => h3 c (Memory.mem_erase hc).1, ih h4⟩

theorem Memory.wf_insert {m : Memory} {a : Nat} {v : Byte} (h : m.wf = true) (ha : a < 65536)
    (hv : v ≠ Config.unlistedByte) (hm : ∀ c ∈ m, c.1 ≠ a) : (m.insert a v).wf = true := by
  induction m with
  | nil => simp [Memory.insert, Memory.wf, ha, hv]
  | cons c m ih =>
    obtain ⟨k, w⟩ := c
    have hk : k ≠ a := hm (k, w) (by simp)
    have h' := h
    rw [Memory.wf_cons] at h'
    obtain ⟨h1, h2, h3, h4⟩ := h'
    by_cases hlt : a < k
    · rw [Memory.insert, if_pos hlt, Memory.wf_cons]
      refine ⟨ha, hv, fun c hc => ?_, h⟩
      rcases List.mem_cons.mp hc with rfl | hc
      · exact hlt
      · exact lt_trans hlt (h3 c hc)
    · rw [Memory.insert, if_neg hlt, Memory.wf_cons]
      refine ⟨h1, h2, fun c hc => ?_, ih h4 (fun c hc => hm c (by simp [hc]))⟩
      rcases Memory.mem_insert.mp hc with rfl | hc
      · show k < a
        omega
      · exact h3 c hc

/-- Every write keeps the canonical form. -/
theorem Memory.wf_write {m : Memory} (a : Word) (v : Byte) (h : m.wf = true) : (m.write a.toNat v).wf = true := by
  unfold Memory.write
  split
  · exact Memory.wf_erase _ h
  · exact Memory.wf_insert (Memory.wf_erase _ h) a.isLt ‹_› (fun c hc => (Memory.mem_erase hc).2)

/-- A word as a number is its address. -/
theorem toNat_eq_iff (a b : Word) : a.toNat = b.toNat ↔ a = b := BitVec.toNat_inj

end Sys2Proof.Machine
end

