-- ==== Sys2Proof/Laws/PerInstr.lean ====
section
/-! SUPPORT. A family stated per constructor: how long an encoding is (spec/30_encoding.md R154, R165, R166). -/

namespace Sys2Proof.Laws.EncodingLength

/-- A row has one to three bytes on its page; from the start of an instruction, with the bytes that lead to its page,
one to four; and the bytes it takes at PC are no more than its encoding has. -/
def Statement (i : Instr) : Prop :=
  (1 ≤ (encode i).length ∧ (encode i).length ≤ 3) ∧ (encodeFull i).length ≤ 4 ∧ i.size ≤ (encode i).length

/-- The statement from the two lengths and the size. -/
theorem of_lengths {i : Instr} {n m : Nat} (hn : (encode i).length = n + 1) (hm : (encodeFull i).length = m)
    (hs : Nat.ble i.size (n + 1) = true) (h : (Nat.ble n 2 && Nat.ble m 4) = true) : Statement i := by
  have hs := Nat.le_of_ble_eq_true hs
  rw [Bool.and_eq_true] at h
  have h1 := Nat.le_of_ble_eq_true h.1
  have h2 := Nat.le_of_ble_eq_true h.2
  unfold Statement
  omega

theorem nop : Statement .nop := of_lengths rfl rfl rfl rfl
theorem exAfAf : Statement .exAfAf := of_lengths rfl rfl rfl rfl
theorem djnz (e : Byte) : Statement (.djnz e) := of_lengths rfl rfl rfl rfl
theorem jr (e : Byte) : Statement (.jr e) := of_lengths rfl rfl rfl rfl
theorem jrCc (cc : JrCond) (e : Byte) : Statement (.jrCc cc e) := of_lengths rfl rfl rfl rfl
theorem ldRpNn (p : Rp) (nn : Word) : Statement (.ldRpNn p nn) := of_lengths rfl rfl rfl rfl
theorem addHlRp (p : Rp) : Statement (.addHlRp p) := of_lengths rfl rfl rfl rfl
theorem ldIndRpA (p : BcDe) : Statement (.ldIndRpA p) := of_lengths rfl rfl rfl rfl
theorem ldIndNnHl (nn : Word) : Statement (.ldIndNnHl nn) := of_lengths rfl rfl rfl rfl
theorem ldIndNnA (nn : Word) : Statement (.ldIndNnA nn) := of_lengths rfl rfl rfl rfl
theorem ldAIndRp (p : BcDe) : Statement (.ldAIndRp p) := of_lengths rfl rfl rfl rfl
theorem ldHlIndNn (nn : Word) : Statement (.ldHlIndNn nn) := of_lengths rfl rfl rfl rfl
theorem ldAIndNn (nn : Word) : Statement (.ldAIndNn nn) := of_lengths rfl rfl rfl rfl
theorem incRp (p : Rp) : Statement (.incRp p) := of_lengths rfl rfl rfl rfl
theorem decRp (p : Rp) : Statement (.decRp p) := of_lengths rfl rfl rfl rfl
theorem incR (r : Reg8) : Statement (.incR r) := of_lengths rfl rfl rfl rfl
theorem incIndHl : Statement .incIndHl := of_lengths rfl rfl rfl rfl
theorem decR (r : Reg8) : Statement (.decR r) := of_lengths rfl rfl rfl rfl
theorem decIndHl : Statement .decIndHl := of_lengths rfl rfl rfl rfl
theorem ldRN (r : Reg8) (n : Byte) : Statement (.ldRN r n) := of_lengths rfl rfl rfl rfl
theorem ldIndHlN (n : Byte) : Statement (.ldIndHlN n) := of_lengths rfl rfl rfl rfl
theorem rlca : Statement .rlca := of_lengths rfl rfl rfl rfl
theorem rrca : Statement .rrca := of_lengths rfl rfl rfl rfl
theorem rla : Statement .rla := of_lengths rfl rfl rfl rfl
theorem rra : Statement .rra := of_lengths rfl rfl rfl rfl
theorem daa : Statement .daa := of_lengths rfl rfl rfl rfl
theorem cpl : Statement .cpl := of_lengths rfl rfl rfl rfl
theorem scf : Statement .scf := of_lengths rfl rfl rfl rfl
theorem ccf : Statement .ccf := of_lengths rfl rfl rfl rfl
theorem ldRR (r : Reg8) (r' : Reg8) : Statement (.ldRR r r') := of_lengths rfl rfl rfl rfl
theorem ldRIndHl (r : Reg8) : Statement (.ldRIndHl r) := of_lengths rfl rfl rfl rfl
theorem ldIndHlR (r : Reg8) : Statement (.ldIndHlR r) := of_lengths rfl rfl rfl rfl
theorem halt : Statement .halt := of_lengths rfl rfl rfl rfl
theorem addAR (r : Reg8) : Statement (.addAR r) := of_lengths rfl rfl rfl rfl
theorem addAIndHl : Statement .addAIndHl := of_lengths rfl rfl rfl rfl
theorem addAN (n : Byte) : Statement (.addAN n) := of_lengths rfl rfl rfl rfl
theorem adcAR (r : Reg8) : Statement (.adcAR r) := of_lengths rfl rfl rfl rfl
theorem adcAIndHl : Statement .adcAIndHl := of_lengths rfl rfl rfl rfl
theorem adcAN (n : Byte) : Statement (.adcAN n) := of_lengths rfl rfl rfl rfl
theorem subR (r : Reg8) : Statement (.subR r) := of_lengths rfl rfl rfl rfl
theorem subIndHl : Statement .subIndHl := of_lengths rfl rfl rfl rfl
theorem subN (n : Byte) : Statement (.subN n) := of_lengths rfl rfl rfl rfl
theorem sbcAR (r : Reg8) : Statement (.sbcAR r) := of_lengths rfl rfl rfl rfl
theorem sbcAIndHl : Statement .sbcAIndHl := of_lengths rfl rfl rfl rfl
theorem sbcAN (n : Byte) : Statement (.sbcAN n) := of_lengths rfl rfl rfl rfl
theorem andR (r : Reg8) : Statement (.andR r) := of_lengths rfl rfl rfl rfl
theorem andIndHl : Statement .andIndHl := of_lengths rfl rfl rfl rfl
theorem andN (n : Byte) : Statement (.andN n) := of_lengths rfl rfl rfl rfl
theorem xorR (r : Reg8) : Statement (.xorR r) := of_lengths rfl rfl rfl rfl
theorem xorIndHl : Statement .xorIndHl := of_lengths rfl rfl rfl rfl
theorem xorN (n : Byte) : Statement (.xorN n) := of_lengths rfl rfl rfl rfl
theorem orR (r : Reg8) : Statement (.orR r) := of_lengths rfl rfl rfl rfl
theorem orIndHl : Statement .orIndHl := of_lengths rfl rfl rfl rfl
theorem orN (n : Byte) : Statement (.orN n) := of_lengths rfl rfl rfl rfl
theorem cpR (r : Reg8) : Statement (.cpR r) := of_lengths rfl rfl rfl rfl
theorem cpIndHl : Statement .cpIndHl := of_lengths rfl rfl rfl rfl
theorem cpN (n : Byte) : Statement (.cpN n) := of_lengths rfl rfl rfl rfl
theorem retCc (cc : Cond) : Statement (.retCc cc) := of_lengths rfl rfl rfl rfl
theorem popRp2 (p : Rp2) : Statement (.popRp2 p) := of_lengths rfl rfl rfl rfl
theorem ret : Statement .ret := of_lengths rfl rfl rfl rfl
theorem exx : Statement .exx := of_lengths rfl rfl rfl rfl
theorem jpIndHl : Statement .jpIndHl := of_lengths rfl rfl rfl rfl
theorem ldSpHl : Statement .ldSpHl := of_lengths rfl rfl rfl rfl
theorem jpCcNn (cc : Cond) (nn : Word) : Statement (.jpCcNn cc nn) := of_lengths rfl rfl rfl rfl
theorem jpNn (nn : Word) : Statement (.jpNn nn) := of_lengths rfl rfl rfl rfl
theorem cbPrefix : Statement .cbPrefix := of_lengths rfl rfl rfl rfl
theorem outNA (n : Byte) : Statement (.outNA n) := of_lengths rfl rfl rfl rfl
theorem inAN (n : Byte) : Statement (.inAN n) := of_lengths rfl rfl rfl rfl
theorem exIndSpHl : Statement .exIndSpHl := of_lengths rfl rfl rfl rfl
theorem exDeHl : Statement .exDeHl := of_lengths rfl rfl rfl rfl
theorem di : Statement .di := of_lengths rfl rfl rfl rfl
theorem ei : Statement .ei := of_lengths rfl rfl rfl rfl
theorem callCcNn (cc : Cond) (nn : Word) : Statement (.callCcNn cc nn) := of_lengths rfl rfl rfl rfl
theorem pushRp2 (p : Rp2) : Statement (.pushRp2 p) := of_lengths rfl rfl rfl rfl
theorem callNn (nn : Word) : Statement (.callNn nn) := of_lengths rfl rfl rfl rfl
theorem ddPrefix : Statement .ddPrefix := of_lengths rfl rfl rfl rfl
theorem edPrefix : Statement .edPrefix := of_lengths rfl rfl rfl rfl
theorem fdPrefix : Statement .fdPrefix := of_lengths rfl rfl rfl rfl
theorem rst (y : BitVec 3) : Statement (.rst y) := of_lengths rfl rfl rfl rfl
theorem rlcR (r : Reg8) : Statement (.rlcR r) := of_lengths rfl rfl rfl rfl
theorem rlcIndHl : Statement .rlcIndHl := of_lengths rfl rfl rfl rfl
theorem rrcR (r : Reg8) : Statement (.rrcR r) := of_lengths rfl rfl rfl rfl
theorem rrcIndHl : Statement .rrcIndHl := of_lengths rfl rfl rfl rfl
theorem rlR (r : Reg8) : Statement (.rlR r) := of_lengths rfl rfl rfl rfl
theorem rlIndHl : Statement .rlIndHl := of_lengths rfl rfl rfl rfl
theorem rrR (r : Reg8) : Statement (.rrR r) := of_lengths rfl rfl rfl rfl
theorem rrIndHl : Statement .rrIndHl := of_lengths rfl rfl rfl rfl
theorem slaR (r : Reg8) : Statement (.slaR r) := of_lengths rfl rfl rfl rfl
theorem slaIndHl : Statement .slaIndHl := of_lengths rfl rfl rfl rfl
theorem sraR (r : Reg8) : Statement (.sraR r) := of_lengths rfl rfl rfl rfl
theorem sraIndHl : Statement .sraIndHl := of_lengths rfl rfl rfl rfl
theorem sllR (r : Reg8) : Statement (.sllR r) := of_lengths rfl rfl rfl rfl
theorem sllIndHl : Statement .sllIndHl := of_lengths rfl rfl rfl rfl
theorem srlR (r : Reg8) : Statement (.srlR r) := of_lengths rfl rfl rfl rfl
theorem srlIndHl : Statement .srlIndHl := of_lengths rfl rfl rfl rfl
theorem bitBR (b : BitVec 3) (r : Reg8) : Statement (.bitBR b r) := of_lengths rfl rfl rfl rfl
theorem bitBIndHl (b : BitVec 3) : Statement (.bitBIndHl b) := of_lengths rfl rfl rfl rfl
theorem resBR (b : BitVec 3) (r : Reg8) : Statement (.resBR b r) := of_lengths rfl rfl rfl rfl
theorem resBIndHl (b : BitVec 3) : Statement (.resBIndHl b) := of_lengths rfl rfl rfl rfl
theorem setBR (b : BitVec 3) (r : Reg8) : Statement (.setBR b r) := of_lengths rfl rfl rfl rfl
theorem setBIndHl (b : BitVec 3) : Statement (.setBIndHl b) := of_lengths rfl rfl rfl rfl
theorem inRC (r : Reg8) : Statement (.inRC r) := of_lengths rfl rfl rfl rfl
theorem inC : Statement .inC := of_lengths rfl rfl rfl rfl
theorem outCR (r : Reg8) : Statement (.outCR r) := of_lengths rfl rfl rfl rfl
theorem outC0 : Statement .outC0 := of_lengths rfl rfl rfl rfl
theorem sbcHlRp (p : Rp) : Statement (.sbcHlRp p) := of_lengths rfl rfl rfl rfl
theorem adcHlRp (p : Rp) : Statement (.adcHlRp p) := of_lengths rfl rfl rfl rfl
theorem ldIndNnRp (p : Rp) (nn : Word) : Statement (.ldIndNnRp p nn) := of_lengths rfl rfl rfl rfl
theorem ldRpIndNn (p : Rp) (nn : Word) : Statement (.ldRpIndNn p nn) := of_lengths rfl rfl rfl rfl
theorem neg (y : BitVec 3) : Statement (.neg y) := of_lengths rfl rfl rfl rfl
theorem retn (y : BitVec 3) : Statement (.retn y) := of_lengths rfl rfl rfl rfl
theorem reti : Statement .reti := of_lengths rfl rfl rfl rfl
theorem im (y : BitVec 3) : Statement (.im y) := of_lengths rfl rfl rfl rfl
theorem ldIA : Statement .ldIA := of_lengths rfl rfl rfl rfl
theorem ldRA : Statement .ldRA := of_lengths rfl rfl rfl rfl
theorem ldAI : Statement .ldAI := of_lengths rfl rfl rfl rfl
theorem ldAR : Statement .ldAR := of_lengths rfl rfl rfl rfl
theorem rrd : Statement .rrd := of_lengths rfl rfl rfl rfl
theorem rld : Statement .rld := of_lengths rfl rfl rfl rfl
theorem nopEd (q : BitVec 1) : Statement (.nopEd q) := of_lengths rfl rfl rfl rfl
theorem ldi : Statement .ldi := of_lengths rfl rfl rfl rfl
theorem ldd : Statement .ldd := of_lengths rfl rfl rfl rfl
theorem ldir : Statement .ldir := of_lengths rfl rfl rfl rfl
theorem lddr : Statement .lddr := of_lengths rfl rfl rfl rfl
theorem cpi : Statement .cpi := of_lengths rfl rfl rfl rfl
theorem cpd : Statement .cpd := of_lengths rfl rfl rfl rfl
theorem cpir : Statement .cpir := of_lengths rfl rfl rfl rfl
theorem cpdr : Statement .cpdr := of_lengths rfl rfl rfl rfl
theorem ini : Statement .ini := of_lengths rfl rfl rfl rfl
theorem ind : Statement .ind := of_lengths rfl rfl rfl rfl
theorem inir : Statement .inir := of_lengths rfl rfl rfl rfl
theorem indr : Statement .indr := of_lengths rfl rfl rfl rfl
theorem outi : Statement .outi := of_lengths rfl rfl rfl rfl
theorem outd : Statement .outd := of_lengths rfl rfl rfl rfl
theorem otir : Statement .otir := of_lengths rfl rfl rfl rfl
theorem otdr : Statement .otdr := of_lengths rfl rfl rfl rfl
theorem noni (op : Byte) : Statement (.noni op) := of_lengths rfl rfl rfl rfl
theorem addIxRp (p : RpX) : Statement (.addIxRp p) := of_lengths rfl rfl rfl rfl
theorem ldIxNn (nn : Word) : Statement (.ldIxNn nn) := of_lengths rfl rfl rfl rfl
theorem ldIndNnIx (nn : Word) : Statement (.ldIndNnIx nn) := of_lengths rfl rfl rfl rfl
theorem incIx : Statement .incIx := of_lengths rfl rfl rfl rfl
theorem incIxHalf (h : Half) : Statement (.incIxHalf h) := of_lengths rfl rfl rfl rfl
theorem decIxHalf (h : Half) : Statement (.decIxHalf h) := of_lengths rfl rfl rfl rfl
theorem ldIxHalfN (h : Half) (n : Byte) : Statement (.ldIxHalfN h n) := of_lengths rfl rfl rfl rfl
theorem ldIxIndNn (nn : Word) : Statement (.ldIxIndNn nn) := of_lengths rfl rfl rfl rfl
theorem decIx : Statement .decIx := of_lengths rfl rfl rfl rfl
theorem incIndIxD (d : Byte) : Statement (.incIndIxD d) := of_lengths rfl rfl rfl rfl
theorem decIndIxD (d : Byte) : Statement (.decIndIxD d) := of_lengths rfl rfl rfl rfl
theorem ldIndIxDN (d : Byte) (n : Byte) : Statement (.ldIndIxDN d n) := of_lengths rfl rfl rfl rfl
theorem ldRIxHalf (r : Reg8NoHL) (h : Half) : Statement (.ldRIxHalf r h) := of_lengths rfl rfl rfl rfl
theorem ldIxHalfR (h : Half) (r : Reg8X) : Statement (.ldIxHalfR h r) := of_lengths rfl rfl rfl rfl
theorem ldRIndIxD (r : Reg8) (d : Byte) : Statement (.ldRIndIxD r d) := of_lengths rfl rfl rfl rfl
theorem ldIndIxDR (d : Byte) (r : Reg8) : Statement (.ldIndIxDR d r) := of_lengths rfl rfl rfl rfl
theorem aluIxHalf (o : AluOp) (h : Half) : Statement (.aluIxHalf o h) := of_lengths rfl rfl rfl rfl
theorem aluIndIxD (o : AluOp) (d : Byte) : Statement (.aluIndIxD o d) := of_lengths rfl rfl rfl rfl
theorem popIx : Statement .popIx := of_lengths rfl rfl rfl rfl
theorem exIndSpIx : Statement .exIndSpIx := of_lengths rfl rfl rfl rfl
theorem pushIx : Statement .pushIx := of_lengths rfl rfl rfl rfl
theorem jpIndIx : Statement .jpIndIx := of_lengths rfl rfl rfl rfl
theorem ldSpIx : Statement .ldSpIx := of_lengths rfl rfl rfl rfl
theorem ddcbPrefix : Statement .ddcbPrefix := of_lengths rfl rfl rfl rfl
theorem rePrefixDd (x : Index) : Statement (.rePrefixDd x) := by cases x <;> exact of_lengths rfl rfl rfl rfl
theorem edAfterDd : Statement .edAfterDd := of_lengths rfl rfl rfl rfl
theorem ddIgnored (op : Byte) : Statement (.ddIgnored op) := of_lengths rfl rfl rfl rfl
theorem addIyRp (p : RpX) : Statement (.addIyRp p) := of_lengths rfl rfl rfl rfl
theorem ldIyNn (nn : Word) : Statement (.ldIyNn nn) := of_lengths rfl rfl rfl rfl
theorem ldIndNnIy (nn : Word) : Statement (.ldIndNnIy nn) := of_lengths rfl rfl rfl rfl
theorem incIy : Statement .incIy := of_lengths rfl rfl rfl rfl
theorem incIyHalf (h : Half) : Statement (.incIyHalf h) := of_lengths rfl rfl rfl rfl
theorem decIyHalf (h : Half) : Statement (.decIyHalf h) := of_lengths rfl rfl rfl rfl
theorem ldIyHalfN (h : Half) (n : Byte) : Statement (.ldIyHalfN h n) := of_lengths rfl rfl rfl rfl
theorem ldIyIndNn (nn : Word) : Statement (.ldIyIndNn nn) := of_lengths rfl rfl rfl rfl
theorem decIy : Statement .decIy := of_lengths rfl rfl rfl rfl
theorem incIndIyD (d : Byte) : Statement (.incIndIyD d) := of_lengths rfl rfl rfl rfl
theorem decIndIyD (d : Byte) : Statement (.decIndIyD d) := of_lengths rfl rfl rfl rfl
theorem ldIndIyDN (d : Byte) (n : Byte) : Statement (.ldIndIyDN d n) := of_lengths rfl rfl rfl rfl
theorem ldRIyHalf (r : Reg8NoHL) (h : Half) : Statement (.ldRIyHalf r h) := of_lengths rfl rfl rfl rfl
theorem ldIyHalfR (h : Half) (r : Reg8X) : Statement (.ldIyHalfR h r) := of_lengths rfl rfl rfl rfl
theorem ldRIndIyD (r : Reg8) (d : Byte) : Statement (.ldRIndIyD r d) := of_lengths rfl rfl rfl rfl
theorem ldIndIyDR (d : Byte) (r : Reg8) : Statement (.ldIndIyDR d r) := of_lengths rfl rfl rfl rfl
theorem aluIyHalf (o : AluOp) (h : Half) : Statement (.aluIyHalf o h) := of_lengths rfl rfl rfl rfl
theorem aluIndIyD (o : AluOp) (d : Byte) : Statement (.aluIndIyD o d) := of_lengths rfl rfl rfl rfl
theorem popIy : Statement .popIy := of_lengths rfl rfl rfl rfl
theorem exIndSpIy : Statement .exIndSpIy := of_lengths rfl rfl rfl rfl
theorem pushIy : Statement .pushIy := of_lengths rfl rfl rfl rfl
theorem jpIndIy : Statement .jpIndIy := of_lengths rfl rfl rfl rfl
theorem ldSpIy : Statement .ldSpIy := of_lengths rfl rfl rfl rfl
theorem fdcbPrefix : Statement .fdcbPrefix := of_lengths rfl rfl rfl rfl
theorem rePrefixFd (x : Index) : Statement (.rePrefixFd x) := by cases x <;> exact of_lengths rfl rfl rfl rfl
theorem edAfterFd : Statement .edAfterFd := of_lengths rfl rfl rfl rfl
theorem fdIgnored (op : Byte) : Statement (.fdIgnored op) := of_lengths rfl rfl rfl rfl
theorem rlcIx (d : Byte) : Statement (.rlcIx d) := of_lengths rfl rfl rfl rfl
theorem rlcIxR (d : Byte) (r : Reg8) : Statement (.rlcIxR d r) := of_lengths rfl rfl rfl rfl
theorem rrcIx (d : Byte) : Statement (.rrcIx d) := of_lengths rfl rfl rfl rfl
theorem rrcIxR (d : Byte) (r : Reg8) : Statement (.rrcIxR d r) := of_lengths rfl rfl rfl rfl
theorem rlIx (d : Byte) : Statement (.rlIx d) := of_lengths rfl rfl rfl rfl
theorem rlIxR (d : Byte) (r : Reg8) : Statement (.rlIxR d r) := of_lengths rfl rfl rfl rfl
theorem rrIx (d : Byte) : Statement (.rrIx d) := of_lengths rfl rfl rfl rfl
theorem rrIxR (d : Byte) (r : Reg8) : Statement (.rrIxR d r) := of_lengths rfl rfl rfl rfl
theorem slaIx (d : Byte) : Statement (.slaIx d) := of_lengths rfl rfl rfl rfl
theorem slaIxR (d : Byte) (r : Reg8) : Statement (.slaIxR d r) := of_lengths rfl rfl rfl rfl
theorem sraIx (d : Byte) : Statement (.sraIx d) := of_lengths rfl rfl rfl rfl
theorem sraIxR (d : Byte) (r : Reg8) : Statement (.sraIxR d r) := of_lengths rfl rfl rfl rfl
theorem sllIx (d : Byte) : Statement (.sllIx d) := of_lengths rfl rfl rfl rfl
theorem sllIxR (d : Byte) (r : Reg8) : Statement (.sllIxR d r) := of_lengths rfl rfl rfl rfl
theorem srlIx (d : Byte) : Statement (.srlIx d) := of_lengths rfl rfl rfl rfl
theorem srlIxR (d : Byte) (r : Reg8) : Statement (.srlIxR d r) := of_lengths rfl rfl rfl rfl
theorem bitIx (d : Byte) (b : BitVec 3) (z : BitVec 3) : Statement (.bitIx d b z) := of_lengths rfl rfl rfl rfl
theorem resIx (d : Byte) (b : BitVec 3) : Statement (.resIx d b) := of_lengths rfl rfl rfl rfl
theorem resIxR (d : Byte) (b : BitVec 3) (r : Reg8) : Statement (.resIxR d b r) := of_lengths rfl rfl rfl rfl
theorem setIx (d : Byte) (b : BitVec 3) : Statement (.setIx d b) := of_lengths rfl rfl rfl rfl
theorem setIxR (d : Byte) (b : BitVec 3) (r : Reg8) : Statement (.setIxR d b r) := of_lengths rfl rfl rfl rfl
theorem rlcIy (d : Byte) : Statement (.rlcIy d) := of_lengths rfl rfl rfl rfl
theorem rlcIyR (d : Byte) (r : Reg8) : Statement (.rlcIyR d r) := of_lengths rfl rfl rfl rfl
theorem rrcIy (d : Byte) : Statement (.rrcIy d) := of_lengths rfl rfl rfl rfl
theorem rrcIyR (d : Byte) (r : Reg8) : Statement (.rrcIyR d r) := of_lengths rfl rfl rfl rfl
theorem rlIy (d : Byte) : Statement (.rlIy d) := of_lengths rfl rfl rfl rfl
theorem rlIyR (d : Byte) (r : Reg8) : Statement (.rlIyR d r) := of_lengths rfl rfl rfl rfl
theorem rrIy (d : Byte) : Statement (.rrIy d) := of_lengths rfl rfl rfl rfl
theorem rrIyR (d : Byte) (r : Reg8) : Statement (.rrIyR d r) := of_lengths rfl rfl rfl rfl
theorem slaIy (d : Byte) : Statement (.slaIy d) := of_lengths rfl rfl rfl rfl
theorem slaIyR (d : Byte) (r : Reg8) : Statement (.slaIyR d r) := of_lengths rfl rfl rfl rfl
theorem sraIy (d : Byte) : Statement (.sraIy d) := of_lengths rfl rfl rfl rfl
theorem sraIyR (d : Byte) (r : Reg8) : Statement (.sraIyR d r) := of_lengths rfl rfl rfl rfl
theorem sllIy (d : Byte) : Statement (.sllIy d) := of_lengths rfl rfl rfl rfl
theorem sllIyR (d : Byte) (r : Reg8) : Statement (.sllIyR d r) := of_lengths rfl rfl rfl rfl
theorem srlIy (d : Byte) : Statement (.srlIy d) := of_lengths rfl rfl rfl rfl
theorem srlIyR (d : Byte) (r : Reg8) : Statement (.srlIyR d r) := of_lengths rfl rfl rfl rfl
theorem bitIy (d : Byte) (b : BitVec 3) (z : BitVec 3) : Statement (.bitIy d b z) := of_lengths rfl rfl rfl rfl
theorem resIy (d : Byte) (b : BitVec 3) : Statement (.resIy d b) := of_lengths rfl rfl rfl rfl
theorem resIyR (d : Byte) (b : BitVec 3) (r : Reg8) : Statement (.resIyR d b r) := of_lengths rfl rfl rfl rfl
theorem setIy (d : Byte) (b : BitVec 3) : Statement (.setIy d b) := of_lengths rfl rfl rfl rfl
theorem setIyR (d : Byte) (b : BitVec 3) (r : Reg8) : Statement (.setIyR d b r) := of_lengths rfl rfl rfl rfl

end Sys2Proof.Laws.EncodingLength
end

