-- ==== Sys2Proof/Laws/Ran.lean ====
section
/-! SUPPORT. Rewriting a chain of shared operations into the form the result statements have: `s.ran n cs` and `s.through cs`.
First what they read as, field by field, then how each further cycle joins the list. -/

namespace Sys2Proof.Machine

/-- Two next states are equal when the states are. -/
theorem next_congr {s t : State} (h : s = t) : (Host.Outcome.next s : Result) = .next t := h ▸ rfl

/-! ### Reading `through` and `ran` -/

@[simp] theorem State.through_af (s : State) (cs : List Cycle) : (s.through cs).af = s.af := rfl
@[simp] theorem State.through_bc (s : State) (cs : List Cycle) : (s.through cs).bc = s.bc := rfl
@[simp] theorem State.through_de (s : State) (cs : List Cycle) : (s.through cs).de = s.de := rfl
@[simp] theorem State.through_hl (s : State) (cs : List Cycle) : (s.through cs).hl = s.hl := rfl
@[simp] theorem State.through_afAlt (s : State) (cs : List Cycle) : (s.through cs).afAlt = s.afAlt := rfl
@[simp] theorem State.through_bcAlt (s : State) (cs : List Cycle) : (s.through cs).bcAlt = s.bcAlt := rfl
@[simp] theorem State.through_deAlt (s : State) (cs : List Cycle) : (s.through cs).deAlt = s.deAlt := rfl
@[simp] theorem State.through_hlAlt (s : State) (cs : List Cycle) : (s.through cs).hlAlt = s.hlAlt := rfl
@[simp] theorem State.through_ix (s : State) (cs : List Cycle) : (s.through cs).ix = s.ix := rfl
@[simp] theorem State.through_iy (s : State) (cs : List Cycle) : (s.through cs).iy = s.iy := rfl
@[simp] theorem State.through_sp (s : State) (cs : List Cycle) : (s.through cs).sp = s.sp := rfl
@[simp] theorem State.through_wz (s : State) (cs : List Cycle) : (s.through cs).wz = s.wz := rfl
@[simp] theorem State.through_iff1 (s : State) (cs : List Cycle) : (s.through cs).iff1 = s.iff1 := rfl
@[simp] theorem State.through_iff2 (s : State) (cs : List Cycle) : (s.through cs).iff2 = s.iff2 := rfl
@[simp] theorem State.through_im (s : State) (cs : List Cycle) : (s.through cs).im = s.im := rfl
@[simp] theorem State.through_halted (s : State) (cs : List Cycle) : (s.through cs).halted = s.halted := rfl
@[simp] theorem State.through_eiBlock (s : State) (cs : List Cycle) : (s.through cs).eiBlock = s.eiBlock := rfl
@[simp] theorem State.through_nmiPend (s : State) (cs : List Cycle) : (s.through cs).nmiPend = s.nmiPend := rfl
@[simp] theorem State.through_irqPend (s : State) (cs : List Cycle) : (s.through cs).irqPend = s.irqPend := rfl
@[simp] theorem State.through_mem (s : State) (cs : List Cycle) : (s.through cs).mem = s.mem := rfl
@[simp] theorem State.through_agent (s : State) (cs : List Cycle) : (s.through cs).agent = s.agent := rfl
@[simp] theorem State.through_pc (s : State) (cs : List Cycle) : (s.through cs).pc = s.pc := rfl
@[simp] theorem State.through_ir (s : State) (cs : List Cycle) : (s.through cs).ir = s.ir := rfl
@[simp] theorem State.through_draws (s : State) (cs : List Cycle) : (s.through cs).draws = s.draws + answers cs := rfl

@[simp] theorem State.ran_af (s : State) (n : Word) (cs : List Cycle) : (s.ran n cs).af = s.af := rfl
@[simp] theorem State.ran_bc (s : State) (n : Word) (cs : List Cycle) : (s.ran n cs).bc = s.bc := rfl
@[simp] theorem State.ran_de (s : State) (n : Word) (cs : List Cycle) : (s.ran n cs).de = s.de := rfl
@[simp] theorem State.ran_hl (s : State) (n : Word) (cs : List Cycle) : (s.ran n cs).hl = s.hl := rfl
@[simp] theorem State.ran_afAlt (s : State) (n : Word) (cs : List Cycle) : (s.ran n cs).afAlt = s.afAlt := rfl
@[simp] theorem State.ran_bcAlt (s : State) (n : Word) (cs : List Cycle) : (s.ran n cs).bcAlt = s.bcAlt := rfl
@[simp] theorem State.ran_deAlt (s : State) (n : Word) (cs : List Cycle) : (s.ran n cs).deAlt = s.deAlt := rfl
@[simp] theorem State.ran_hlAlt (s : State) (n : Word) (cs : List Cycle) : (s.ran n cs).hlAlt = s.hlAlt := rfl
@[simp] theorem State.ran_ix (s : State) (n : Word) (cs : List Cycle) : (s.ran n cs).ix = s.ix := rfl
@[simp] theorem State.ran_iy (s : State) (n : Word) (cs : List Cycle) : (s.ran n cs).iy = s.iy := rfl
@[simp] theorem State.ran_sp (s : State) (n : Word) (cs : List Cycle) : (s.ran n cs).sp = s.sp := rfl
@[simp] theorem State.ran_wz (s : State) (n : Word) (cs : List Cycle) : (s.ran n cs).wz = s.wz := rfl
@[simp] theorem State.ran_iff1 (s : State) (n : Word) (cs : List Cycle) : (s.ran n cs).iff1 = s.iff1 := rfl
@[simp] theorem State.ran_iff2 (s : State) (n : Word) (cs : List Cycle) : (s.ran n cs).iff2 = s.iff2 := rfl
@[simp] theorem State.ran_im (s : State) (n : Word) (cs : List Cycle) : (s.ran n cs).im = s.im := rfl
@[simp] theorem State.ran_halted (s : State) (n : Word) (cs : List Cycle) : (s.ran n cs).halted = s.halted := rfl
@[simp] theorem State.ran_eiBlock (s : State) (n : Word) (cs : List Cycle) : (s.ran n cs).eiBlock = s.eiBlock := rfl
@[simp] theorem State.ran_nmiPend (s : State) (n : Word) (cs : List Cycle) : (s.ran n cs).nmiPend = s.nmiPend := rfl
@[simp] theorem State.ran_irqPend (s : State) (n : Word) (cs : List Cycle) : (s.ran n cs).irqPend = s.irqPend := rfl
@[simp] theorem State.ran_mem (s : State) (n : Word) (cs : List Cycle) : (s.ran n cs).mem = s.mem := rfl
@[simp] theorem State.ran_agent (s : State) (n : Word) (cs : List Cycle) : (s.ran n cs).agent = s.agent := rfl
@[simp] theorem State.ran_pc (s : State) (n : Word) (cs : List Cycle) : (s.ran n cs).pc = s.pc + n := rfl
@[simp] theorem State.ran_ir (s : State) (n : Word) (cs : List Cycle) : (s.ran n cs).ir = countedIr s.ir := rfl
@[simp] theorem State.ran_draws (s : State) (n : Word) (cs : List Cycle) : (s.ran n cs).draws = s.draws + answers cs := rfl
@[simp] theorem State.ran_clock (s : State) (n : Word) (cs : List Cycle) : (s.ran n cs).clock = clockAfter cs s.clock := rfl

@[simp] theorem State.through_reg (s : State) (cs : List Cycle) (r : Reg8) : (s.through cs).reg r = s.reg r := by cases r <;> rfl
@[simp] theorem State.through_rp (s : State) (cs : List Cycle) (p : Rp) : (s.through cs).rp p = s.rp p := by cases p <;> rfl
@[simp] theorem State.through_rp2 (s : State) (cs : List Cycle) (p : Rp2) : (s.through cs).rp2 p = s.rp2 p := by cases p <;> rfl
@[simp] theorem State.through_bcDe (s : State) (cs : List Cycle) (p : BcDe) : (s.through cs).bcDe p = s.bcDe p := by cases p <;> rfl
@[simp] theorem State.through_idx (s : State) (cs : List Cycle) (x : Index) : (s.through cs).idx x = s.idx x := by cases x <;> rfl
@[simp] theorem State.through_half (s : State) (cs : List Cycle) (x : Index) (h : Half) : (s.through cs).half x h = s.half x h := by cases x <;> cases h <;> rfl
@[simp] theorem State.through_rpX (s : State) (cs : List Cycle) (x : Index) (p : RpX) : (s.through cs).rpX x p = s.rpX x p := by cases x <;> cases p <;> rfl
@[simp] theorem State.through_regX (s : State) (cs : List Cycle) (x : Index) (r : Reg8X) : (s.through cs).regX x r = s.regX x r := by cases x <;> cases r <;> rfl
@[simp] theorem State.through_ea (s : State) (cs : List Cycle) (x : Index) (d : Byte) : (s.through cs).ea x d = s.ea x d := by cases x <;> rfl
@[simp] theorem State.through_a (s : State) (cs : List Cycle) : (s.through cs).a = s.a := rfl
@[simp] theorem State.through_f (s : State) (cs : List Cycle) : (s.through cs).f = s.f := rfl
@[simp] theorem State.through_b (s : State) (cs : List Cycle) : (s.through cs).b = s.b := rfl
@[simp] theorem State.through_c (s : State) (cs : List Cycle) : (s.through cs).c = s.c := rfl
@[simp] theorem State.through_reply (s : State) (cs : List Cycle) (k : Nat) (a : Word) :
    (s.through cs).reply k a = s.reply (answers cs + k) a := State.reply_shift a rfl rfl rfl
@[simp] theorem State.through_byteAt (s : State) (cs : List Cycle) (a : Word) :
    (s.through cs).byteAt a = s.reply (answers cs) a := by simp [State.byteAt]
@[simp] theorem State.through_wordAt (s : State) (cs : List Cycle) (a : Word) :
    (s.through cs).wordAt a = cat (s.reply (answers cs + 1) (a + 1)) (s.reply (answers cs) a) := by simp [State.wordAt]
@[simp] theorem State.through_portReply (s : State) (cs : List Cycle) (k : Nat) (p : Word) :
    (s.through cs).portReply k p = s.portReply (answers cs + k) p := by simp [State.portReply, Nat.add_assoc]
@[simp] theorem State.through_portByte (s : State) (cs : List Cycle) (p : Word) :
    (s.through cs).portByte p = s.portReply (answers cs) p := rfl
@[simp] theorem State.through_cRead (s : State) (cs : List Cycle) (k : Nat) (a : Word) :
    (s.through cs).cRead k a = s.cRead (answers cs + k) a := by simp [State.cRead]
@[simp] theorem State.through_cIn (s : State) (cs : List Cycle) (k : Nat) (p : Word) :
    (s.through cs).cIn k p = s.cIn (answers cs + k) p := by simp [State.cIn]

@[simp] theorem State.ran_reg (s : State) (n : Word) (cs : List Cycle) (r : Reg8) : (s.ran n cs).reg r = s.reg r := by cases r <;> rfl
@[simp] theorem State.ran_rp (s : State) (n : Word) (cs : List Cycle) (p : Rp) : (s.ran n cs).rp p = s.rp p := by cases p <;> rfl
@[simp] theorem State.ran_rp2 (s : State) (n : Word) (cs : List Cycle) (p : Rp2) : (s.ran n cs).rp2 p = s.rp2 p := by cases p <;> rfl
@[simp] theorem State.ran_bcDe (s : State) (n : Word) (cs : List Cycle) (p : BcDe) : (s.ran n cs).bcDe p = s.bcDe p := by cases p <;> rfl
@[simp] theorem State.ran_idx (s : State) (n : Word) (cs : List Cycle) (x : Index) : (s.ran n cs).idx x = s.idx x := by cases x <;> rfl
@[simp] theorem State.ran_half (s : State) (n : Word) (cs : List Cycle) (x : Index) (h : Half) : (s.ran n cs).half x h = s.half x h := by cases x <;> cases h <;> rfl
@[simp] theorem State.ran_rpX (s : State) (n : Word) (cs : List Cycle) (x : Index) (p : RpX) : (s.ran n cs).rpX x p = s.rpX x p := by cases x <;> cases p <;> rfl
@[simp] theorem State.ran_regX (s : State) (n : Word) (cs : List Cycle) (x : Index) (r : Reg8X) : (s.ran n cs).regX x r = s.regX x r := by cases x <;> cases r <;> rfl
@[simp] theorem State.ran_ea (s : State) (n : Word) (cs : List Cycle) (x : Index) (d : Byte) : (s.ran n cs).ea x d = s.ea x d := by cases x <;> rfl
@[simp] theorem State.ran_a (s : State) (n : Word) (cs : List Cycle) : (s.ran n cs).a = s.a := rfl
@[simp] theorem State.ran_f (s : State) (n : Word) (cs : List Cycle) : (s.ran n cs).f = s.f := rfl
@[simp] theorem State.ran_b (s : State) (n : Word) (cs : List Cycle) : (s.ran n cs).b = s.b := rfl
@[simp] theorem State.ran_c (s : State) (n : Word) (cs : List Cycle) : (s.ran n cs).c = s.c := rfl
@[simp] theorem State.ran_reply (s : State) (n : Word) (cs : List Cycle) (k : Nat) (a : Word) :
    (s.ran n cs).reply k a = s.reply (answers cs + k) a := State.reply_shift a rfl rfl rfl
@[simp] theorem State.ran_byteAt (s : State) (n : Word) (cs : List Cycle) (a : Word) :
    (s.ran n cs).byteAt a = s.reply (answers cs) a := by simp [State.byteAt]
@[simp] theorem State.ran_wordAt (s : State) (n : Word) (cs : List Cycle) (a : Word) :
    (s.ran n cs).wordAt a = cat (s.reply (answers cs + 1) (a + 1)) (s.reply (answers cs) a) := by simp [State.wordAt]
@[simp] theorem State.ran_portReply (s : State) (n : Word) (cs : List Cycle) (k : Nat) (p : Word) :
    (s.ran n cs).portReply k p = s.portReply (answers cs + k) p := by simp [State.portReply, Nat.add_assoc]
@[simp] theorem State.ran_portByte (s : State) (n : Word) (cs : List Cycle) (p : Word) :
    (s.ran n cs).portByte p = s.portReply (answers cs) p := rfl
@[simp] theorem State.ran_cRead (s : State) (n : Word) (cs : List Cycle) (k : Nat) (a : Word) :
    (s.ran n cs).cRead k a = s.cRead (answers cs + k) a := by simp [State.cRead]
@[simp] theorem State.ran_cIn (s : State) (n : Word) (cs : List Cycle) (k : Nat) (p : Word) :
    (s.ran n cs).cIn k p = s.cIn (answers cs + k) p := by simp [State.cIn]

/-! ### Joining cycles -/

@[simp] theorem State.through_nil (s : State) : s.through [] = s := rfl

@[simp] theorem State.through_through (s : State) (cs ds : List Cycle) : (s.through cs).through ds = s.through (cs ++ ds) := by
  simp only [State.through, clockAfter_append, Prod.mk.eta, answers_append, Nat.add_assoc]

@[simp] theorem State.ran_through (s : State) (n : Word) (cs ds : List Cycle) :
    (s.ran n cs).through ds = s.ran n (cs ++ ds) := by
  simp only [State.ran, State.through, clockAfter_append, Prod.mk.eta, answers_append, Nat.add_assoc]

theorem State.internal_through (s : State) (a : Word) (n : Nat) : s.internal a n = s.through (cIdle a n) :=
  State.ext_clock (by simp) (by simp) (by simp) (by simp) (by simp) (by simp) (by simp) (by simp) (by simp) (by simp)
    (by simp) (by simp) (by simp) (by simp) (by simp) (by simp) (by simp) (by simp) (by simp) (by simp) (by simp) (by simp)
    (by simp) (by simp) (by simp)

theorem State.readAt_through (s : State) (a : Word) : s.readAt a = s.through [s.cRead 0 a] := rfl

theorem State.opFetch_ran (s : State) : s.opFetch = s.ran 1 [s.cFetch s.pc] := rfl

theorem State.ran_operand (s : State) (n : Word) (cs : List Cycle) :
    (s.ran n cs).operand = s.ran (n + 1) (cs ++ [s.cRead (answers cs) (s.pc + n)]) := by
  have h := s.ran_through n cs [s.cRead (answers cs) (s.pc + n)]
  simp only [State.operand, State.readAt_through, State.ran_cRead, State.ran_pc, Nat.add_zero, h]
  simp only [State.ran, State.through, BitVec.add_assoc]

theorem State.ran_readAt (s : State) (n : Word) (cs : List Cycle) (a : Word) :
    (s.ran n cs).readAt a = s.ran n (cs ++ [s.cRead (answers cs) a]) := by
  rw [State.readAt_through, State.ran_through, State.ran_cRead, Nat.add_zero]

theorem State.ran_internal (s : State) (n : Word) (cs : List Cycle) (a : Word) (k : Nat) :
    (s.ran n cs).internal a k = s.ran n (cs ++ cIdle a k) := by
  rw [State.internal_through, State.ran_through]

theorem State.writeAt_through (s : State) (a : Word) (v : Byte) :
    s.writeAt a v = { s.through [cWrite a v] with mem := s.mem.write a.toNat v } := rfl

theorem State.ioReadAt_through (s : State) (p : Word) :
    s.ioReadAt p = s.through [s.cIn 0 p] := rfl

theorem State.ioWriteAt_through (s : State) (p : Word) (v : Byte) : s.ioWriteAt p v = s.through [cOut p v] := rfl

theorem State.ack_through (s : State) (n : Nat) : s.ack n = { s.through [s.cAck n] with ir := countedIr s.ir } := rfl

theorem State.ran_writeAt (s : State) (n : Word) (cs : List Cycle) (a : Word) (v : Byte) :
    (s.ran n cs).writeAt a v = { s.ran n (cs ++ [cWrite a v]) with mem := s.mem.write a.toNat v } := by
  rw [State.writeAt_through, State.ran_through, State.ran_mem]

theorem State.ran_ioReadAt (s : State) (n : Word) (cs : List Cycle) (p : Word) :
    (s.ran n cs).ioReadAt p = s.ran n (cs ++ [s.cIn (answers cs) p]) := by
  rw [State.ioReadAt_through, State.ran_through, State.ran_cIn, Nat.add_zero]

theorem State.ran_ioWriteAt (s : State) (n : Word) (cs : List Cycle) (p : Word) (v : Byte) :
    (s.ran n cs).ioWriteAt p v = s.ran n (cs ++ [cOut p v]) := by
  rw [State.ioWriteAt_through, State.ran_through]

end Sys2Proof.Machine
end

