-- ==== Sys2Proof/Laws/Step.lean ====
section
/-! SUPPORT. The step, case by case (spec/60_exceptions.md R653), one row of an instruction at a time, and that the shared
operations that store keep the canonical form of memory. -/

namespace Sys2Proof.Machine

/-! ### One case of the step each -/

theorem step_nmi {s : State} (h : s.nmiPend = true) : step s = .next s.acceptNmi := by
  simp [step, h]

theorem step_irq {s : State} (hn : s.nmiPend = false) (hi : s.irqRecognised = true) : step s = .next s.acceptIrq := by
  simp [step, hn, hi]

theorem step_halted {s : State} (hn : s.nmiPend = false) (hi : s.irqRecognised = false) (hh : s.halted = true) :
    step s = .next { s with eiBlock := false }.haltedCycle := by
  simp [step, hn, hi, hh]

theorem step_executes {s : State} (h : s.Executes) :
    step s = executeRows exec rowLimit .base { s with eiBlock := false } := by
  simp [step, h.1, h.2.1, h.2.2]

/-! ### One row of an instruction -/

/-- The row that ends the instruction is run. -/
theorem executeRows_last {run : Instr → State → Result} {n : Nat} {pg : Page} {s : State} {i : Instr}
    (hd : decode pg s.window = .ok i) (hs : i.selects = none) : executeRows run (n + 1) pg s = run i s := by
  simp only [executeRows, hd, hs]

/-- A prefix row is run, and its page is the next row's. -/
theorem executeRows_prefix {run : Instr → State → Result} {n : Nat} {pg pg' : Page} {s s' : State} {i : Instr}
    (hd : decode pg s.window = .ok i) (hs : i.selects = some pg') (hr : run i s = .next s') :
    executeRows run (n + 1) pg s = executeRows run n pg' s' := by
  simp only [executeRows, hd, hs, hr]

/-! ### The canonical form of memory -/

/-- It depends on memory alone. -/
theorem State.inv_of_mem {s t : State} (h : t.mem = s.mem) (hs : s.Inv) : t.Inv := by
  unfold State.Inv at *
  rw [h]
  exact hs

theorem State.writeAt_inv {s : State} (a : Word) (v : Byte) (h : s.Inv) : (s.writeAt a v).Inv := by
  unfold State.Inv at *
  exact Memory.wf_write a v h

theorem State.writeWordAt_inv {s : State} (a w : Word) (h : s.Inv) : (s.writeWordAt a w).Inv :=
  State.writeAt_inv _ _ (State.writeAt_inv _ _ h)

theorem State.pushByte_inv {s : State} (v : Byte) (h : s.Inv) : (s.pushByte v).Inv := by
  unfold State.Inv at *
  rw [State.pushByte_mem]
  exact Memory.wf_write _ _ h

theorem State.push_inv {s : State} (w : Word) (h : s.Inv) : (s.push w).Inv :=
  State.pushByte_inv _ (State.pushByte_inv _ h)

theorem State.modifyAt_inv {s : State} (a : Word) (g : Byte → Byte) (h : s.Inv) : (s.modifyAt a g).Inv := by
  unfold State.Inv at *
  rw [State.modifyAt_mem]
  exact Memory.wf_write _ _ h

theorem State.exchangeTop_inv {s : State} (w : Word) (h : s.Inv) : (s.exchangeTop w).Inv := by
  unfold State.Inv at *
  rw [State.exchangeTop_mem]
  exact Memory.wf_write _ _ (Memory.wf_write _ _ h)

/-- Placing an instruction word for the next step keeps the canonical form. -/
theorem State.placeBytes_inv {s : State} (a : Word) (vs : List Byte) (h : s.Inv) : (s.placeBytes a vs).Inv := by
  induction vs generalizing s a with
  | nil => exact h
  | cons v vs ih =>
    refine ih (a + 1) ?_
    unfold State.Inv at *
    exact Memory.wf_write a v h

theorem State.withFetchWord_inv {s : State} (nbits w : Nat) (h : s.Inv) : (s.withFetchWord nbits w).Inv :=
  State.inv_of_mem rfl (State.placeBytes_inv _ _ h)

end Sys2Proof.Machine
end

