-- ==== Sys2Proof/Tests/Slice0.lean ====
section
/-! SUPPORT. The model's own tests: ill-formed instructions are refused; words written out from the spec's encodings decode; one
step on a small state gives the result spec/95_test_vectors.md states (the docstring names the vector); and a witness for the
hypotheses of each statement. A test's T is checked as base ticks: what the bus adds is a free value. -/

open Sys2Proof Sys2Proof.Machine

namespace Sys2Proof.Tests

/-! ## Ill-formed instructions are refused -/

/-- ED 4D is RETI, not a RETN (R457, R458). -/
theorem test_wf_retn : Instr.wellFormed (.retn 1) = false ∧ Instr.wellFormed (.retn 0) = true := by decide

/-- ED 44 is NEG, not a NONI (R454, R470). -/
theorem test_wf_noni : Instr.wellFormed (.noni 0x44) = false ∧ Instr.wellFormed (.noni 0x00) = true := by decide

/-- DD 21 is LD IX,nn, so DD is not ignored before 21 (R571, R579). -/
theorem test_wf_dd_ignored : Instr.wellFormed (.ddIgnored 0x21) = false ∧ Instr.wellFormed (.ddIgnored 0xEB) = true := by decide

/-- FD CB leads to the FDCB page, so FD is not ignored before CB (R571, R620). -/
theorem test_wf_fd_ignored : Instr.wellFormed (.fdIgnored 0xCB) = false ∧ Instr.wellFormed (.fdIgnored 0x00) = true := by decide

/-! ## Words of each family, from the encodings of spec/30_encoding.md (R163 to R167) and the rows' rules -/

/-- Base loads: 01 ddd sss (R200), 00 ddd 110 n (R201), 00 pp0 001 nn (R212), 11 pp0 101 (R216). -/
theorem test_decode_loads :
    decode .base [0b01000001] = .ok (.ldRR .b .c)
      ∧ decode .base [0b00011110, 0x80] = .ok (.ldRN .e 0x80)
      ∧ decode .base [0b00110001, 0x34, 0x12] = .ok (.ldRpNn .sp 0x1234)
      ∧ decode .base [0b11110101] = .ok (.pushRp2 .af) := by decide

/-- Base arithmetic: 10 ooo sss (R264 to R271), 11 ooo 110 n, 00 ddd 101 (R274), 00 pp1 001 (R290). -/
theorem test_decode_arithmetic :
    decode .base [0b10011010] = .ok (.sbcAR .d)
      ∧ decode .base [0b11111110, 0x0A] = .ok (.cpN 0x0A)
      ∧ decode .base [0b00101101] = .ok (.decR .l)
      ∧ decode .base [0b00101001] = .ok (.addHlRp .hl) := by decide

/-- Base control: 01110110 (R332), 11 ccc 010 nn (R341), 00 1cc 000 e (R344), 11 yyy 111 (R351), D3 n (R354). -/
theorem test_decode_control :
    decode .base [0b01110110] = .ok .halt
      ∧ decode .base [0b11101010, 0x00, 0x80] = .ok (.jpCcNn .pe 0x8000)
      ∧ decode .base [0b00111000, 0xFE] = .ok (.jrCc .c 0xFE)
      ∧ decode .base [0b11111111] = .ok (.rst 7)
      ∧ decode .base [0b11010011, 0xFE] = .ok (.outNA 0xFE) := by decide

/-- CB page: 00 ooo rrr (R402 to R409), 01 bbb rrr (R410), 10 bbb 110 (R412), 11 bbb rrr (R413). -/
theorem test_decode_cb :
    decode .cb [0b00110001] = .ok (.sllR .c)
      ∧ decode .cb [0b01111100] = .ok (.bitBR 7 .h)
      ∧ decode .cb [0b10010110] = .ok (.resBIndHl 2)
      ∧ decode .cb [0b11000111] = .ok (.setBR 0 .a) := by decide

/-- ED page: 01 rrr 000 (R450), 01 pp0 010 (R463), 01 yyy 110 (R459), 01001101 (R457), 10111001 (R529), NONI (R470). -/
theorem test_decode_ed :
    decode .ed [0b01010000] = .ok (.inRC .d)
      ∧ decode .ed [0b01100010] = .ok (.sbcHlRp .hl)
      ∧ decode .ed [0b01011110] = .ok (.im 3)
      ∧ decode .ed [0b01001101] = .ok .reti
      ∧ decode .ed [0b10111001] = .ok .cpdr
      ∧ decode .ed [0b11101101] = .ok (.noni 0xED) := by decide

/-- DD page: 00 pp1 001 (R580), 01 ddd 110 d (R574), 10 ooo 10h (R595), an ignored prefix (R571), a further one (R596). -/
theorem test_decode_dd :
    decode .dd [0b00011001] = .ok (.addIxRp .de)
      ∧ decode .dd [0b01100110, 0xFF] = .ok (.ldRIndIxD .h 0xFF)
      ∧ decode .dd [0b10111101] = .ok (.aluIxHalf .cp .low)
      ∧ decode .dd [0b11101011] = .ok (.ddIgnored 0xEB)
      ∧ decode .dd [0b11111101] = .ok (.rePrefixDd .iy)
      ∧ decode .dd [0b11101101] = .ok .edAfterDd := by decide

/-- FD page: 00110110 d n (R576), 01 10h sss (R591), 11101001 (R586), 11001011 (R620). -/
theorem test_decode_fd :
    decode .fd [0b00110110, 0x02, 0x99] = .ok (.ldIndIyDN 0x02 0x99)
      ∧ decode .fd [0b01101010] = .ok (.ldIyHalfR .low .d)
      ∧ decode .fd [0b11101001] = .ok .jpIndIy
      ∧ decode .fd [0b11001011] = .ok .fdcbPrefix := by decide

/-- DDCB and FDCB pages: d, then 00 ooo 110 or 00 ooo rrr (R621, R622), 01 bbb zzz (R623), 11 bbb 110 (R626). -/
theorem test_decode_index_cb :
    decode .ddcb [0x05, 0b00000110] = .ok (.rlcIx 0x05)
      ∧ decode .ddcb [0xFB, 0b00011100] = .ok (.rrIxR 0xFB .h)
      ∧ decode .fdcb [0x00, 0b01101010] = .ok (.bitIy 0x00 5 2)
      ∧ decode .fdcb [0x7F, 0b11111110] = .ok (.setIy 0x7F 7) := by decide

/-- A whole instruction from its first byte, prefixes included, with DD before a base row left alone (R153, R571). -/
theorem test_decode_rows :
    decodeRows 4 .base [0xDD, 0xCB, 0x05, 0xC6] = .ok [.ddPrefix, .ddcbPrefix, .setIx 0x05 0]
      ∧ decodeRows 4 .base [0xDD, 0xFD, 0x23] = .ok [.ddPrefix, .rePrefixDd .iy, .incIy]
      ∧ decodeRows 4 .base [0xDD, 0xEB] = .ok [.ddPrefix, .ddIgnored 0xEB, .exDeHl]
      ∧ decodeRows 4 .base [0xFD, 0xED, 0x44] = .ok [.fdPrefix, .edAfterFd, .neg 0] := by decide

/-- A word with a missing operand is rejected by name (R168). -/
theorem test_decode_truncated : decode .base [0x01, 0x00] = .error .truncated := by decide

/-! ## One step of each kind, from spec/95_test_vectors.md -/

/-- All registers, flags and memory zero, on the plain-memory bus (the vectors' "all zero"). -/
def zero : State where
  af := 0
  bc := 0
  de := 0
  hl := 0
  afAlt := 0
  bcAlt := 0
  deAlt := 0
  hlAlt := 0
  ix := 0
  iy := 0
  sp := 0
  pc := 0
  ir := 0
  wz := 0
  iff1 := false
  iff2 := false
  im := .im0
  halted := false
  eiBlock := false
  nmiPend := false
  irqPend := false
  t := 0
  mem := []
  agent := .plainMemory
  bus := []
  draws := 0

/-- Bytes placed at an address, and PC there. -/
def code (a : Word) (vs : List Byte) (s : State) : State := { s with pc := a }.placeBytes a vs

/-- The state after one step. -/
def after (s : State) : State :=
  match step s with
  | .next t => t
  | _ => s

end Sys2Proof.Tests

namespace Sys2Proof.Machine

/-- The base ticks of the whole bus trace. -/
def State.spent (s : State) : Nat := baseTicks s.bus

/-- The port writes of the bus trace, in order. -/
def State.written (s : State) : List (Word × Byte) :=
  s.bus.reverse.filterMap fun e => if e.kind = .ioWrite then e.data.map fun v => (e.addr, v) else none

end Sys2Proof.Machine

namespace Sys2Proof.Tests

/-- V-LD-1: `LD B,C` (R200). -/
theorem test_ld_1_r200 :
    (fun t : State => (t.bc, t.spent)) (after (code 0x0000 [0x41] { zero with bc := 0x005A })) =
      (0x5A5A, 4) := by decide

/-- V-LD-4: `LD A,(HL)` (R202). -/
theorem test_ld_4_r202 :
    (fun t : State => (t.af, t.spent)) (after (code 0x0000 [0x7E] { zero with hl := 0x8000, mem := [(0x8000, 0xC3)] })) =
      (0xC300, 7) := by decide

/-- V-LD-5: `LD A,(DE)` (R203). -/
theorem test_ld_5_r203 :
    (fun t : State => (t.af, t.wz, t.spent)) (after (code 0x0000 [0x1A] { zero with de := 0x8001, mem := [(0x8001, 0x44)] })) =
      (0x4400, 0x8002, 7) := by decide

/-- V-LD-7: `LD (BC),A` (R205). -/
theorem test_ld_7_r205 :
    (fun t : State => (t.wz, t.byteAt 0x80FF, t.spent)) (after (code 0x0000 [0x02] { zero with af := 0x1200, bc := 0x80FF })) =
      (0x1200, 0x12, 7) := by decide

/-- V-LD-10: `LD (HL),n` (R208). -/
theorem test_ld_10_r208 :
    (fun t : State => (t.byteAt 0x8000, t.spent)) (after (code 0x0000 [0x36, 0xA5] { zero with hl := 0x8000 })) =
      (0xA5, 10) := by decide

/-- V-LD-12: `LD SP,HL` (R213). -/
theorem test_ld_12_r213 :
    (fun t : State => (t.sp, t.spent)) (after (code 0x0000 [0xF9] { zero with hl := 0xC000 })) =
      (0xC000, 6) := by decide

/-- V-LD-13: `LD HL,(nn) at 0xFFFF` (R214). -/
theorem test_ld_13_r214 :
    (fun t : State => (t.hl, t.spent)) (after (code 0x0000 [0x2A, 0xFF, 0xFF] { zero with mem := [(0xFFFF, 0x34)] })) =
      (0x2A34, 16) := by decide

/-- V-LD-14: `LD (nn),HL` (R215). -/
theorem test_ld_14_r215 :
    (fun t : State => (t.wz, t.byteAt 0x9000, t.byteAt 0x9001, t.spent)) (after (code 0x0000 [0x22, 0x00, 0x90] { zero with hl := 0xBEEF })) =
      (0x9001, 0xEF, 0xBE, 16) := by decide

/-- V-LD-15: `PUSH AF` (R216). -/
theorem test_ld_15_r216 :
    (fun t : State => (t.sp, t.byteAt 0x7FFE, t.byteAt 0x7FFF, t.spent)) (after (code 0x0000 [0xF5] { zero with af := 0x12D7, sp := 0x8000 })) =
      (0x7FFE, 0xD7, 0x12, 11) := by decide

/-- V-LD-17: `POP DE at SP=0xFFFF` (R217). -/
theorem test_ld_17_r217 :
    (fun t : State => (t.de, t.sp, t.spent)) (after (code 0x0000 [0xD1] { zero with sp := 0xFFFF, mem := [(0xFFFF, 0x78)] })) =
      (0xD178, 0x0001, 10) := by decide

/-- V-LD-20: `EXX` (R230). -/
theorem test_ld_20_r230 :
    (fun t : State => (t.bc, t.de, t.hl, t.bcAlt, t.deAlt, t.hlAlt, t.spent)) (after (code 0x0000 [0xD9] { zero with bc := 0x1111, de := 0x2222, hl := 0x3333, bcAlt := 0x4444, deAlt := 0x5555, hlAlt := 0x6666 })) =
      (0x4444, 0x5555, 0x6666, 0x1111, 0x2222, 0x3333, 4) := by decide

/-- V-LD-21: `EX DE,HL` (R231). -/
theorem test_ld_21_r231 :
    (fun t : State => (t.de, t.hl, t.spent)) (after (code 0x0000 [0xEB] { zero with de := 0x1234, hl := 0x5678 })) =
      (0x5678, 0x1234, 4) := by decide

/-- V-LD-22: `EX (SP),HL` (R232). -/
theorem test_ld_22_r232 :
    (fun t : State => (t.hl, t.wz, t.byteAt 0x8000, t.byteAt 0x8001, t.spent)) (after (code 0x0000 [0xE3] { zero with hl := 0x1234, sp := 0x8000, mem := [(0x8000, 0x78), (0x8001, 0x56)] })) =
      (0x5678, 0x5678, 0x34, 0x12, 19) := by decide

/-- V-ALU-1: `ADD A,n` (R264). -/
theorem test_alu_1_r264 :
    (fun t : State => (t.af, t.spent)) (after (code 0x0000 [0xC6, 0x01] { zero with af := 0x7F00 })) =
      (0x8094, 7) := by decide

/-- V-ALU-3: `ADC A,B` (R265). -/
theorem test_alu_3_r265 :
    (fun t : State => (t.af, t.spent)) (after (code 0x0000 [0x88] { zero with af := 0xFF01 })) =
      (0x0051, 4) := by decide

/-- V-ALU-7: `SBC A,A` (R267). -/
theorem test_alu_7_r267 :
    (fun t : State => (t.af, t.spent)) (after (code 0x0000 [0x9F] { zero with af := 0x5501 })) =
      (0xFFBB, 4) := by decide

/-- V-ALU-8: `AND n` (R268). -/
theorem test_alu_8_r268 :
    (fun t : State => (t.af, t.spent)) (after (code 0x0000 [0xE6, 0x0F] { zero with af := 0xF000 })) =
      (0x0054, 7) := by decide

/-- V-ALU-10: `OR (HL)` (R270). -/
theorem test_alu_10_r270 :
    (fun t : State => (t.af, t.spent)) (after (code 0x0000 [0xB6] { zero with af := 0x0100, hl := 0x8000, mem := [(0x8000, 0x28)] })) =
      (0x2928, 7) := by decide

/-- V-ALU-11: `CP n (equal)` (R271). -/
theorem test_alu_11_r271 :
    (fun t : State => (t.af, t.spent)) (after (code 0x0000 [0xFE, 0x42] { zero with af := 0x4200 })) =
      (0x4242, 7) := by decide

/-- V-ALU-13: `INC A` (R272). -/
theorem test_alu_13_r272 :
    (fun t : State => (t.af, t.spent)) (after (code 0x0000 [0x3C] { zero with af := 0x7F01 })) =
      (0x8095, 4) := by decide

/-- V-ALU-16: `DEC C` (R274). -/
theorem test_alu_16_r274 :
    (fun t : State => (t.af, t.bc, t.spent)) (after (code 0x0000 [0x0D] { zero with bc := 0x0080 })) =
      (0x003E, 0x007F, 4) := by decide

/-- V-ALU-18: `DEC (HL)` (R275). -/
theorem test_alu_18_r275 :
    (fun t : State => (t.af, t.byteAt 0x8000, t.spent)) (after (code 0x0000 [0x35] { zero with hl := 0x8000 })) =
      (0x00BA, 0xFF, 11) := by decide

/-- V-ALU-21: `DAA with A=0x9A` (R276). -/
theorem test_alu_21_r276 :
    (fun t : State => (t.af, t.spent)) (after (code 0x0000 [0x27] { zero with af := 0x9A00 })) =
      (0x0055, 4) := by decide

/-- V-ALU-22: `CPL` (R277). -/
theorem test_alu_22_r277 :
    (fun t : State => (t.af, t.spent)) (after (code 0x0000 [0x2F] { zero with af := 0x5A00 })) =
      (0xA532, 4) := by decide

/-- V-ALU-23: `SCF` (R278). -/
theorem test_alu_23_r278 :
    (fun t : State => (t.af, t.spent)) (after (code 0x0000 [0x37] { zero with af := 0x00FE })) =
      (0x00C5, 4) := by decide

/-- V-ALU-24: `CCF` (R279). -/
theorem test_alu_24_r279 :
    (fun t : State => (t.af, t.spent)) (after (code 0x0000 [0x3F] { zero with af := 0x2801 })) =
      (0x2838, 4) := by decide

/-- V-ALU-25: `RLCA` (R280). -/
theorem test_alu_25_r280 :
    (fun t : State => (t.af, t.spent)) (after (code 0x0000 [0x07] { zero with af := 0x8100 })) =
      (0x0301, 4) := by decide

/-- V-ALU-28: `RRA` (R283). -/
theorem test_alu_28_r283 :
    (fun t : State => (t.af, t.spent)) (after (code 0x0000 [0x1F] { zero with af := 0x0101 })) =
      (0x8001, 4) := by decide

/-- V-ALU-29: `ADD HL,DE` (R290). -/
theorem test_alu_29_r290 :
    (fun t : State => (t.af, t.hl, t.wz, t.spent)) (after (code 0x0000 [0x19] { zero with de := 0x0001, hl := 0x0FFF })) =
      (0x0010, 0x1000, 0x1000, 11) := by decide

/-- V-ALU-31: `INC BC` (R291). -/
theorem test_alu_31_r291 :
    (fun t : State => (t.bc, t.spent)) (after (code 0x0000 [0x03] { zero with bc := 0xFFFF })) =
      (0x0000, 6) := by decide

/-- V-CTL-2: `HALT` (R332). -/
theorem test_ctl_2_r332 :
    (fun t : State => (t.pc, t.halted, t.spent)) (after (code 0x0100 [0x76] zero)) =
      (0x0100, true, 4) := by decide

/-- V-CTL-4: `EI` (R335). -/
theorem test_ctl_4_r335 :
    (fun t : State => (t.iff1, t.iff2, t.eiBlock, t.spent)) (after (code 0x0000 [0xFB] zero)) =
      (true, true, true, 4) := by decide

/-- V-CTL-6: `JP Z,nn (not taken)` (R341). -/
theorem test_ctl_6_r341 :
    (fun t : State => (t.wz, t.pc, t.spent)) (after (code 0x0000 [0xCA, 0x34, 0x12] zero)) =
      (0x1234, 0x0003, 10) := by decide

/-- V-CTL-9: `JR e (e = 0xFE, to itself)` (R343). -/
theorem test_ctl_9_r343 :
    (fun t : State => (t.wz, t.pc, t.spent)) (after (code 0x0100 [0x18, 0xFE] zero)) =
      (0x0100, 0x0100, 12) := by decide

/-- V-CTL-11: `JR NZ,e (not taken)` (R344). -/
theorem test_ctl_11_r344 :
    (fun t : State => (t.pc, t.spent)) (after (code 0x0000 [0x20, 0x10] { zero with af := 0x0040 })) =
      (0x0002, 7) := by decide

/-- V-CTL-13: `DJNZ e with B=1` (R345). -/
theorem test_ctl_13_r345 :
    (fun t : State => (t.bc, t.pc, t.spent)) (after (code 0x0000 [0x10, 0xFE] { zero with bc := 0x0100 })) =
      (0x0000, 0x0002, 8) := by decide

/-- V-CTL-15: `CALL nn` (R347). -/
theorem test_ctl_15_r347 :
    (fun t : State => (t.sp, t.wz, t.pc, t.byteAt 0x7FFE, t.byteAt 0x7FFF, t.spent)) (after (code 0x1000 [0xCD, 0x00, 0x20] { zero with sp := 0x8000 })) =
      (0x7FFE, 0x2000, 0x2000, 0x03, 0x10, 17) := by decide

/-- V-CTL-17: `RET` (R349). -/
theorem test_ctl_17_r349 :
    (fun t : State => (t.sp, t.wz, t.pc, t.spent)) (after (code 0x0000 [0xC9] { zero with sp := 0x8000, mem := [(0x8000, 0x03), (0x8001, 0x10)] })) =
      (0x8002, 0x1003, 0x1003, 10) := by decide

/-- V-CTL-18: `RET PE (taken)` (R350). -/
theorem test_ctl_18_r350 :
    (fun t : State => (t.sp, t.wz, t.pc, t.spent)) (after (code 0x0000 [0xE8] { zero with af := 0x0004, sp := 0x8000, mem := [(0x8000, 0x03), (0x8001, 0x10)] })) =
      (0x8002, 0x1003, 0x1003, 11) := by decide

/-- V-CTL-20: `RST 38H` (R351). -/
theorem test_ctl_20_r351 :
    (fun t : State => (t.sp, t.wz, t.pc, t.byteAt 0x7FFE, t.byteAt 0x7FFF, t.spent)) (after (code 0x1234 [0xFF] { zero with sp := 0x8000 })) =
      (0x7FFE, 0x0038, 0x0038, 0x35, 0x12, 11) := by decide

/-- V-CTL-23: `OUT (n),A` (R354). -/
theorem test_ctl_23_r354 :
    (fun t : State => (t.wz, t.written, t.spent)) (after (code 0x0000 [0xD3, 0xFF] { zero with af := 0x1200 })) =
      (0x1200, [(0x12FF, 0x12)], 11) := by decide

/-- V-CB-1: `RLC B` (R402). -/
theorem test_cb_1_r402 :
    (fun t : State => (t.af, t.bc, t.spent)) (after (code 0x0000 [0xCB, 0x00] { zero with bc := 0x8000 })) =
      (0x0001, 0x0100, 8) := by decide

/-- V-CB-4: `RR E` (R405). -/
theorem test_cb_4_r405 :
    (fun t : State => (t.af, t.de, t.spent)) (after (code 0x0000 [0xCB, 0x1B] { zero with af := 0x0001, de := 0x0001 })) =
      (0x0081, 0x0080, 8) := by decide

/-- V-CB-7: `SLL A` (R408). -/
theorem test_cb_7_r408 :
    (fun t : State => (t.af, t.spent)) (after (code 0x0000 [0xCB, 0x37] { zero with af := 0x8000 })) =
      (0x0101, 8) := by decide

/-- V-CB-10: `BIT 7,H` (R410). -/
theorem test_cb_10_r410 :
    (fun t : State => (t.af, t.spent)) (after (code 0x0000 [0xCB, 0x7C] { zero with hl := 0x8000 })) =
      (0x0090, 8) := by decide

/-- V-CB-12: `BIT 0,(HL) with WZ=0x2800` (R411). -/
theorem test_cb_12_r411 :
    (fun t : State => (t.af, t.spent)) (after (code 0x0000 [0xCB, 0x46] { zero with hl := 0x8000, wz := 0x2800 })) =
      (0x007C, 12) := by decide

/-- V-CB-13: `RES 7,(HL)` (R412). -/
theorem test_cb_13_r412 :
    (fun t : State => (t.byteAt 0x8000, t.spent)) (after (code 0x0000 [0xCB, 0xBE] { zero with hl := 0x8000, mem := [(0x8000, 0xFF)] })) =
      (0x7F, 15) := by decide

/-- V-CB-15: `SET 7,A` (R413). -/
theorem test_cb_15_r413 :
    (fun t : State => (t.af, t.spent)) (after (code 0x0000 [0xCB, 0xFF] zero)) =
      (0x8000, 8) := by decide

/-- V-ED-4: `OUT (C),D` (R452). -/
theorem test_ed_4_r452 :
    (fun t : State => (t.wz, t.written, t.spent)) (after (code 0x0000 [0xED, 0x51] { zero with bc := 0x12FE, de := 0x3C00 })) =
      (0x12FF, [(0x12FE, 0x3C)], 12) := by decide

/-- V-ED-5: `OUT (C),0` (R453). -/
theorem test_ed_5_r453 :
    (fun t : State => (t.wz, t.written, t.spent)) (after (code 0x0000 [0xED, 0x71] { zero with bc := 0x12FE })) =
      (0x12FF, [(0x12FE, 0x00)], 12) := by decide

/-- V-ED-6: `NEG` (R454). -/
theorem test_ed_6_r454 :
    (fun t : State => (t.af, t.spent)) (after (code 0x0000 [0xED, 0x44] { zero with af := 0x8000 })) =
      (0x8087, 8) := by decide

/-- V-ED-9: `RETI` (R457). -/
theorem test_ed_9_r457 :
    (fun t : State => (t.sp, t.wz, t.pc, t.iff1, t.spent)) (after (code 0x0000 [0xED, 0x4D] { zero with sp := 0x8000, iff2 := true, mem := [(0x8001, 0x30)] })) =
      (0x8002, 0x3000, 0x3000, true, 14) := by decide

/-- V-ED-11: `IM 2` (R459). -/
theorem test_ed_11_r459 :
    (fun t : State => (t.im, t.spent)) (after (code 0x0000 [0xED, 0x5E] zero)) =
      (IntMode.im2, 8) := by decide

/-- V-ED-14: `LD I,A` (R460). -/
theorem test_ed_14_r460 :
    (fun t : State => (t.ir, t.spent)) (after (code 0x0000 [0xED, 0x47] { zero with af := 0x8000 })) =
      (0x8002, 9) := by decide

/-- V-ED-15: `LD R,A` (R461). -/
theorem test_ed_15_r461 :
    (fun t : State => (t.ir, t.spent)) (after (code 0x0000 [0xED, 0x4F] { zero with af := 0x8000 })) =
      (0x0080, 9) := by decide

/-- V-ED-16: `LD A,R` (R469). -/
theorem test_ed_16_r469 :
    (fun t : State => (t.af, t.spent)) (after (code 0x0000 [0xED, 0x5F] { zero with ir := 0x007F })) =
      (0x0100, 9) := by decide

/-- V-ED-17: `LD A,I` (R468). -/
theorem test_ed_17_r468 :
    (fun t : State => (t.af, t.spent)) (after (code 0x0000 [0xED, 0x57] { zero with ir := 0x8000, iff2 := true })) =
      (0x8084, 9) := by decide

/-- V-ED-18: `ADC HL,DE` (R462). -/
theorem test_ed_18_r462 :
    (fun t : State => (t.af, t.hl, t.wz, t.spent)) (after (code 0x0000 [0xED, 0x5A] { zero with af := 0x0001, hl := 0x7FFF })) =
      (0x0094, 0x8000, 0x8000, 15) := by decide

/-- V-ED-19: `SBC HL,DE` (R463). -/
theorem test_ed_19_r463 :
    (fun t : State => (t.af, t.hl, t.wz, t.spent)) (after (code 0x0000 [0xED, 0x52] { zero with de := 0x1234, hl := 0x1234 })) =
      (0x0042, 0x0000, 0x1235, 15) := by decide

/-- V-ED-21: `LD (nn),DE` (R465). -/
theorem test_ed_21_r465 :
    (fun t : State => (t.wz, t.byteAt 0x9000, t.byteAt 0x9001, t.spent)) (after (code 0x0000 [0xED, 0x53, 0x00, 0x90] { zero with de := 0xABCD })) =
      (0x9001, 0xCD, 0xAB, 20) := by decide

/-- V-ED-23: `RLD` (R466). -/
theorem test_ed_23_r466 :
    (fun t : State => (t.af, t.wz, t.byteAt 0x8000, t.spent)) (after (code 0x0000 [0xED, 0x6F] { zero with af := 0x1200, hl := 0x8000, mem := [(0x8000, 0x34)] })) =
      (0x1300, 0x8001, 0x42, 18) := by decide

/-- V-ED-24: `RRD` (R467). -/
theorem test_ed_24_r467 :
    (fun t : State => (t.af, t.wz, t.byteAt 0x8000, t.spent)) (after (code 0x0000 [0xED, 0x67] { zero with af := 0x1200, hl := 0x8000, mem := [(0x8000, 0x34)] })) =
      (0x1404, 0x8001, 0x23, 18) := by decide

/-- V-ED-25: `NONI ED 00` (R470). -/
theorem test_ed_25_r470 :
    (fun t : State => (t.spent)) (after (code 0x0000 [0xED, 0x00] zero)) =
      (8) := by decide

/-- V-BLK-1: `LDI` (R522). -/
theorem test_blk_1_r522 :
    (fun t : State => (t.af, t.bc, t.de, t.hl, t.byteAt 0x9000, t.spent)) (after (code 0x0000 [0xED, 0xA0] { zero with bc := 0x0001, de := 0x9000, hl := 0x8000, mem := [(0x8000, 0x0A)] })) =
      (0x0028, 0x0000, 0x9001, 0x8001, 0x0A, 16) := by decide

/-- V-BLK-6: `LDDR, BC=1` (R525). -/
theorem test_blk_6_r525 :
    (fun t : State => (t.af, t.bc, t.de, t.hl, t.pc, t.byteAt 0x9001, t.spent)) (after (code 0x0000 [0xED, 0xB8] { zero with bc := 0x0001, de := 0x9001, hl := 0x8001, mem := [(0x8001, 0x33)] })) =
      (0x0020, 0x0000, 0x9000, 0x8000, 0x0002, 0x33, 16) := by decide

/-- V-BLK-7: `CPI (match)` (R526). -/
theorem test_blk_7_r526 :
    (fun t : State => (t.af, t.bc, t.hl, t.wz, t.spent)) (after (code 0x0000 [0xED, 0xA1] { zero with af := 0x3C01, bc := 0x0002, hl := 0x8000, mem := [(0x8000, 0x3C)] })) =
      (0x3C47, 0x0001, 0x8001, 0x0001, 16) := by decide

/-- V-BLK-15: `OUTI` (R534). -/
theorem test_blk_15_r534 :
    (fun t : State => (t.af, t.bc, t.written, t.spent)) (after (code 0x0000 [0xED, 0xA3] { zero with bc := 0x0110, hl := 0x80FF, mem := [(0x80FF, 0x80)] })) =
      (0x0046, 0x0010, [(0x0010, 0x80)], 16) := by decide

/-- V-BLK-18: `OTDR, B=1` (R537). -/
theorem test_blk_18_r537 :
    (fun t : State => (t.af, t.bc, t.written, t.spent)) (after (code 0x0000 [0xED, 0xBB] { zero with bc := 0x0110, hl := 0x8000, mem := [(0x8000, 0xFF)] })) =
      (0x0057, 0x0010, [(0x0010, 0xFF)], 16) := by decide

/-- V-IX-2: `LD A,(IX-1)` (R574). -/
theorem test_ix_2_r574 :
    (fun t : State => (t.af, t.wz, t.spent)) (after (code 0x0000 [0xDD, 0x7E, 0xFF] { zero with ix := 0x8001, mem := [(0x8000, 0x5A)] })) =
      (0x5A00, 0x8000, 19) := by decide

/-- V-IX-5: `LD (IX-128),n` (R576). -/
theorem test_ix_5_r576 :
    (fun t : State => (t.wz, t.byteAt 0x8000, t.spent)) (after (code 0x0000 [0xDD, 0x36, 0x80, 0x42] { zero with ix := 0x8080 })) =
      (0x8000, 0x42, 19) := by decide

/-- V-IX-8: `ADD IX,IX` (R580). -/
theorem test_ix_8_r580 :
    (fun t : State => (t.af, t.ix, t.wz, t.spent)) (after (code 0x0000 [0xDD, 0x29] { zero with ix := 0x8800 })) =
      (0x0011, 0x1000, 0x8801, 15) := by decide

/-- V-IX-12: `EX (SP),IX` (R583). -/
theorem test_ix_12_r583 :
    (fun t : State => (t.ix, t.wz, t.byteAt 0x8000, t.byteAt 0x8001, t.spent)) (after (code 0x0000 [0xDD, 0xE3] { zero with ix := 0x1234, sp := 0x8000, mem := [(0x8000, 0x78), (0x8001, 0x56)] })) =
      (0x5678, 0x5678, 0x34, 0x12, 23) := by decide

/-- V-IX-17: `ADD A,(IX+5)` (R588). -/
theorem test_ix_17_r588 :
    (fun t : State => (t.af, t.wz, t.spent)) (after (code 0x0000 [0xDD, 0x86, 0x05] { zero with af := 0x0100, ix := 0x8000, mem := [(0x8005, 0x7F)] })) =
      (0x8094, 0x8005, 19) := by decide

/-- V-IX-20: `DEC (IY+1)` (R590). -/
theorem test_ix_20_r590 :
    (fun t : State => (t.af, t.wz, t.byteAt 0x8001, t.spent)) (after (code 0x0000 [0xFD, 0x35, 0x01] { zero with iy := 0x8000, mem := [(0x8001, 0x01)] })) =
      (0x0042, 0x8001, 0x00, 23) := by decide

/-- V-IX-21: `LD IXH,B` (R591). -/
theorem test_ix_21_r591 :
    (fun t : State => (t.ix, t.spent)) (after (code 0x0000 [0xDD, 0x60] { zero with bc := 0xAB00, ix := 0x1234 })) =
      (0xAB34, 8) := by decide

/-- V-IX-24: `INC IXH` (R593). -/
theorem test_ix_24_r593 :
    (fun t : State => (t.af, t.ix, t.spent)) (after (code 0x0000 [0xDD, 0x24] { zero with ix := 0x7F00 })) =
      (0x0094, 0x8000, 8) := by decide

/-- V-IX-26: `SUB IXL` (R595). -/
theorem test_ix_26_r595 :
    (fun t : State => (t.af, t.spent)) (after (code 0x0000 [0xDD, 0x95] { zero with af := 0x1000, ix := 0x0011 })) =
      (0xFFBB, 8) := by decide

/-- V-IX-27: `DD 00 (pass-through NOP)` (R571). -/
theorem test_ix_27_r571 :
    (fun t : State => (t.spent)) (after (code 0x0000 [0xDD, 0x00] zero)) =
      (8) := by decide

/-- V-IX-30: `DD FD 21 nn (last prefix wins)` (R596). -/
theorem test_ix_30_r596 :
    (fun t : State => (t.iy, t.spent)) (after (code 0x0000 [0xDD, 0xFD, 0x21, 0x34, 0x12] zero)) =
      (0x1234, 18) := by decide

/-- V-XCB-1: `RRC (IX+3)` (R621). -/
theorem test_xcb_1_r621 :
    (fun t : State => (t.af, t.wz, t.byteAt 0x8003, t.spent)) (after (code 0x0000 [0xDD, 0xCB, 0x03, 0x0E] { zero with ix := 0x8000, mem := [(0x8003, 0x01)] })) =
      (0x0081, 0x8003, 0x80, 23) := by decide

/-- V-XCB-3: `RL (IX+0)->E` (R622). -/
theorem test_xcb_3_r622 :
    (fun t : State => (t.de, t.wz, t.byteAt 0x8000, t.spent)) (after (code 0x0000 [0xDD, 0xCB, 0x00, 0x13] { zero with af := 0x0001, ix := 0x8000, mem := [(0x8000, 0x80)] })) =
      (0x0001, 0x8000, 0x01, 23) := by decide

/-- V-XCB-5: `BIT 6,(IY+0)` (R623). -/
theorem test_xcb_5_r623 :
    (fun t : State => (t.af, t.wz, t.spent)) (after (code 0x0000 [0xFD, 0xCB, 0x00, 0x76] { zero with iy := 0x0800, mem := [(0x0800, 0x40)] })) =
      (0x0018, 0x0800, 20) := by decide

/-- V-XCB-8: `RES 0,(IX+0)->C` (R625). -/
theorem test_xcb_8_r625 :
    (fun t : State => (t.bc, t.wz, t.byteAt 0x8000, t.spent)) (after (code 0x0000 [0xDD, 0xCB, 0x00, 0x81] { zero with ix := 0x8000, mem := [(0x8000, 0x03)] })) =
      (0x0002, 0x8000, 0x02, 23) := by decide

/-- V-XCB-10: `SET 1,(IY+0)->H` (R627). -/
theorem test_xcb_10_r627 :
    (fun t : State => (t.hl, t.wz, t.byteAt 0x8000, t.spent)) (after (code 0x0000 [0xFD, 0xCB, 0x00, 0xCC] { zero with hl := 0xFF00, iy := 0x8000 })) =
      (0x0200, 0x8000, 0x02, 23) := by decide

/-! ## Witnesses: states and operands that meet the hypotheses of each statement -/

/-- DecodeOfEncodeIsTheRow, DecodeOfWholeEncoding: a row of a page behind two prefixes, and the rows the check speaks of. -/
theorem witness_well_formed :
    Instr.wellFormed (.setIx 0x80 7) = true ∧ (Instr.setIx 0x80 7).selects = none
      ∧ Instr.wellFormed (.retn 7) = true ∧ Instr.wellFormed (.noni 0xFF) = true
      ∧ Instr.wellFormed (.ddIgnored 0xFF) = true := by decide

/-- DecodedRowHasTheseBytes: a byte string with more bytes than the row. -/
theorem witness_decoded : decode .dd [0x36, 0xFF, 0x00, 0x77] = .ok (.ldIndIxDN 0xFF 0x00) := by decide

/-- MemoryReadAfterWrite, WordsAreLittleEndian: each bus, and an address that is neither byte of a word at the top of memory. -/
theorem witness_memory :
    zero.agent = .plainMemory ∧ { zero with agent := .anyBus }.agent = .anyBus
      ∧ (1 : Word) ≠ 0xFFFF ∧ (1 : Word) ≠ 0xFFFF + 1 := by decide

/-- A state that is about to store through HL. -/
def storing : State := code 0x0100 [0x77] { zero with af := 0x4200, hl := 0xFFFF }

/-- CanonicalMemoryIsKept: a step that stores a byte where nothing is listed. -/
theorem witness_canonical : storing.Inv ∧ ∃ t, hostOp .step storing = .next t := ⟨by unfold State.Inv; decide, _, rfl⟩

/-- StepRunsTheDecodedRow. -/
theorem witness_decoded_row :
    storing.Executes ∧ decode .base storing.window = .ok (.ldIndHlR .a) ∧ (Instr.ldIndHlR .a).selects = none := by
  unfold State.Executes
  decide

/-- A state at DD CB 7F C6, SET 0,(IX+127), which wraps past the top of memory. -/
def wrapping : State := code 0xFFFE [0xDD, 0xCB, 0x7F, 0xC6] { zero with ix := 0xFFF0 }

/-- StepRunsInstruction and StepTakesTableTicks. -/
theorem witness_instruction :
    wrapping.Executes ∧ Instr.wellFormed (.setIx 0x7F 0) = true ∧ (Instr.setIx 0x7F 0).selects = none
      ∧ wrapping.BytesAt wrapping.pc (encodeFull (.setIx 0x7F 0)) ∧ ∃ t, step wrapping = .next t := by
  refine ⟨by unfold State.Executes; decide, rfl, rfl, ?_, _, rfl⟩
  refine ⟨?_, ?_, ?_, ?_, trivial⟩ <;> decide

/-- StepRunsAfterIndexBytes, with a row of the page the last byte selects. -/
theorem witness_index_bytes :
    let s := code 0xFFFF [0xDD, 0xFD, 0x23] zero
    s.Executes ∧ (∀ v ∈ [(0xDD : Byte)], isIndexByte v = true) ∧ isIndexByte 0xFD = true
      ∧ leadAfterIndex (indexOf 0xFD) .incIy = some [] ∧ s.BytesAt s.pc ([0xDD] ++ 0xFD :: [] ++ encode .incIy) := by
  refine ⟨by unfold State.Executes; decide, by decide, by decide, by decide, ?_⟩
  refine ⟨?_, ?_, ?_, trivial⟩ <;> decide

/-- StepRunsAfterIndexBytes, with ED and CB after the index bytes and with a base row they leave alone. -/
theorem witness_index_leads :
    leadAfterIndex .iy (.neg 0) = some [0xED] ∧ leadAfterIndex .iy (.setIy 0x00 0) = some [0xCB]
      ∧ leadAfterIndex .ix .exDeHl = some [] := by decide

/-- Memory with the same byte at every address of a list reads as that byte there. -/
theorem read_filled (l : List Nat) (v : Byte) (a : Nat) (h : a ∈ l) : Memory.read (l.map fun b => (b, v)) a = v := by
  induction l with
  | nil => simp at h
  | cons b l ih =>
    by_cases hb : b = a
    · simp [Memory.read, hb]
    · simp only [List.map_cons, Memory.read, hb, if_false]
      exact ih (by simpa [Ne.symm hb] using h)

/-- Memory with the byte v at the first n addresses. -/
def filled (n : Nat) (v : Byte) : Memory := (List.range n).map fun b => (b, v)

/-- Every byte of memory v. -/
def allBytes (n : Nat) (v : Byte) : State := { zero with mem := filled n v }

theorem reply_allBytes (n : Nat) (v : Byte) (k : Nat) (a : Word) (h : a.toNat < n) : (allBytes n v).reply k a = v :=
  read_filled (List.range n) v a.toNat (List.mem_range.mpr h)

theorem allBytes_executes (n : Nat) (v : Byte) : (allBytes n v).Executes := ⟨rfl, rfl, rfl⟩

theorem read_not_filled (l : List Nat) (v : Byte) (a : Nat) (h : a ∉ l) :
    Memory.read (l.map fun b => (b, v)) a = Config.unlistedByte := by
  induction l with
  | nil => rfl
  | cons b l ih =>
    simp only [List.mem_cons, not_or] at h
    simp only [List.map_cons, Memory.read, Ne.symm h.1, if_false]
    exact ih h.2

theorem reply_beyond (n : Nat) (v : Byte) (k : Nat) (a : Word) (h : n ≤ a.toNat) :
    (allBytes n v).reply k a = Config.unlistedByte :=
  read_not_filled (List.range n) v a.toNat (by rw [List.mem_range]; omega)

/-- The same byte as n answers in a row, and what follows them. -/
theorem answers_replicate (s : State) (v : Byte) (rest : List Byte) (n j : Nat) (a : Word)
    (h : ∀ k < n, s.reply (j + k) (a + BitVec.ofNat 16 k) = v) (hr : s.Answers (j + n) (a + BitVec.ofNat 16 n) rest) :
    s.Answers j a (List.replicate n v ++ rest) := by
  induction n generalizing j a with
  | zero => simpa using hr
  | succ n ih =>
    refine ⟨by simpa using h 0 (by omega), ih (j + 1) (a + 1) (fun k hk => ?_) ?_⟩
    · have := h (k + 1) (by omega)
      rw [show j + 1 + k = j + (k + 1) by omega]
      rwa [show BitVec.ofNat 16 (k + 1) = 1 + BitVec.ofNat 16 k by rw [BitVec.ofNat_add]; exact BitVec.add_comm _ _,
        ← BitVec.add_assoc] at this
    · rw [show j + 1 + n = j + (n + 1) by omega]
      rwa [show BitVec.ofNat 16 (n + 1) = 1 + BitVec.ofNat 16 n by rw [BitVec.ofNat_add]; exact BitVec.add_comm _ _,
        ← BitVec.add_assoc] at hr

/-- StepRunsAfterIndexBytes at its bound: 65,535 bytes DD, and NOP in the one byte left. -/
theorem witness_index_bound :
    let s := allBytes 65535 0xDD
    s.Executes ∧ leadAfterIndex (indexOf 0xDD) .nop = some []
      ∧ (List.replicate 65534 (0xDD : Byte)).length < 65535
      ∧ s.BytesAt s.pc (List.replicate 65534 0xDD ++ 0xDD :: [] ++ encode .nop) := by
  refine ⟨allBytes_executes _ _, by decide, by rw [List.length_replicate]; omega, ?_⟩
  rw [List.append_assoc]
  refine answers_replicate _ _ _ _ _ _ (fun k hk => reply_allBytes _ _ _ _ ?_)
    ⟨reply_allBytes _ _ _ _ (by decide), ?_, trivial⟩
  · rw [show (allBytes 65535 0xDD).pc = 0#16 from rfl, BitVec.zero_add, BitVec.toNat_ofNat]
    omega
  · rw [show (allBytes 65535 0xDD).pc + BitVec.ofNat 16 65534 + 1 = 0xFFFF from rfl]
    exact (reply_beyond 65535 0xDD _ 0xFFFF (by decide)).trans (by decide)

/-- OnlyEndlessPrefixesStop: a state where an instruction never ends, and one where it does. -/
theorem witness_hangs :
    (allBytes 65536 0xDD).Hangs ∧ (allBytes 65536 0xDD).PrefixesFor 65537 ∧ ¬ zero.Hangs ∧ ¬ zero.PrefixesFor 65536 := by
  have h : ∀ k a, isIndexByte ((allBytes 65536 0xDD).reply k a) = true := fun k a => by
    rw [reply_allBytes 65536 0xDD k a a.isLt]
    rfl
  refine ⟨⟨allBytes_executes _ _, h 0⟩, fun k _ => h k _, fun h => ?_, fun h => ?_⟩
  · exact absurd (h.2 0) (by decide)
  · exact absurd (h 0 (by decide)) (by decide)

/-- OnlyEndlessPrefixesStop: a step that does not begin an instruction. -/
theorem witness_not_executing : ¬ { zero with halted := true }.Executes := by
  unfold State.Executes
  decide

/-- RegistersOutsideDestKept, FlagsOutsideMaskKept, RefreshCountsM1: INC B, and D, which it does not write. -/
theorem witness_frame :
    (∃ t, exec (.incR .b) zero = .next t) ∧ (⟨.de, .high⟩ : ByteItem) ∉ (Instr.incR .b).dest
      ∧ (⟨.de, .high⟩ : ByteItem).pair ≠ .pc ∧ (⟨.de, .high⟩ : ByteItem) ≠ ⟨.ir, .low⟩ ∧ Instr.incR .b ≠ .ldRA :=
  ⟨⟨_, rfl⟩, by decide, by decide, by decide, by decide⟩

/-- MemoryOutsideStoresKept: a form that stores, at an address beside its byte, and one that stores nothing. -/
theorem witness_stores :
    (∃ t, exec (.ldIndHlR .a) storing = .next t) ∧ (0x0000 : Word) ∉ (Instr.ldIndHlR .a).stores storing
      ∧ (∃ t, exec .nop storing = .next t) ∧ (Instr.nop).stores storing = [] :=
  ⟨⟨_, rfl⟩, by decide, ⟨_, rfl⟩, rfl⟩

/-- TimeIsTheSumOfTransactions, ResultsDoNotDependOnTime: a step that executes, and one that accepts. -/
theorem witness_time : (∃ t, step storing = .next t) ∧ ∃ t, step { storing with nmiPend := true } = .next t :=
  ⟨⟨_, rfl⟩, _, rfl⟩

/-- NmiAcceptance and ReturnsFromInterrupts: an NMI in the halt, with SP at the bottom. -/
theorem witness_nmi : { zero with nmiPend := true, halted := true, pc := 0xFFFF }.nmiPend = true := rfl

/-- IrqAcceptance and ReturnsFromInterrupts: a recognised IRQ in mode 1 and in mode 2. -/
theorem witness_irq :
    let s : State := { zero with irqPend := true, iff1 := true, iff2 := true, im := .im1 }
    s.nmiPend = false ∧ s.irqPend = true ∧ s.iff1 = true ∧ s.eiBlock = false ∧ s.irqRecognised = true ∧ s.im ≠ .im2
      ∧ { s with im := .im2 }.im = .im2 ∧ { s with im := .im2 }.irqRecognised = true ∧ s.agent = .plainMemory := by decide

/-- EI with an IRQ pending, then RETI. -/
def eiReti : State := code 0x0000 [0xFB, 0xED, 0x4D] { zero with irqPend := true, sp := 0x8000 }

/-- EiDefersOneInstruction. -/
theorem witness_ei :
    eiReti.Executes ∧ eiReti.reply 0 eiReti.pc = 0xFB ∧ Instr.wellFormed .reti = true ∧ Instr.reti.selects = none
      ∧ Instr.reti ≠ .ei ∧ (after eiReti).BytesAt (after eiReti).pc (encodeFull .reti)
      ∧ ∃ u, step (after eiReti) = .next u := by
  refine ⟨by unfold State.Executes; decide, by decide, rfl, rfl, by decide, ?_, _, rfl⟩
  refine ⟨?_, ?_, trivial⟩ <;> decide

/-- HaltWaits: halted, with an IRQ pending that is disabled. -/
theorem witness_halt :
    let s : State := { zero with halted := true, irqPend := true }
    s.halted = true ∧ s.nmiPend = false ∧ s.iff1 = false := by decide

/-- RequestsStayPending: an IRQ that EI defers, one behind an NMI, and none. -/
theorem witness_pending :
    let s : State := { zero with irqPend := true, iff1 := true, eiBlock := true }
    (∃ t, step s = .next t) ∧ s.irqPend = true ∧ s.irqRecognised = false
      ∧ (∃ t, step { s with nmiPend := true } = .next t) ∧ (∃ t, step zero = .next t) ∧ zero.irqPend = false :=
  ⟨⟨_, rfl⟩, rfl, rfl, ⟨_, rfl⟩, ⟨_, rfl⟩, rfl⟩

/-- AccessorsStoreExactly: a flag at the end of F, and IM at both sides of its bound (I12). -/
theorem witness_accessors :
    7 < 8 ∧ (2, IntMode.im2) ∈ [(0, IntMode.im0), (1, .im1), (2, .im2)] ∧ { zero with im := .im2 }.im = .im2
      ∧ zero.putIm 3 = .refused .interruptModeOutOfRange :=
  ⟨by decide, .tail _ (.tail _ (.head _)), rfl, rfl⟩

/-- ExchangesAreInvolutions, ShiftsBitByBit, FlagTablesByValue: members of each range, at its ends. -/
theorem witness_ranges :
    (WordItem.bc ≠ .pc ∧ WordItem.bc ≠ .ir ∧ WordItem.bc ≠ .af ∧ WordItem.bc ≠ .afAlt)
      ∧ RotOp.sll ∈ [RotOp.rlc, .rl, .sla, .sll] ∧ RotOp.rrc ∈ [RotOp.rrc, .rr, .sra, .srl] ∧ 0 < 7 ∧ 6 < 7
      ∧ 7 ∈ [7, 5, 3] ∧ 0 ∈ [0, 1, 2, 4] := by decide

/-- RestartValues: both states it speaks of are in its lists. -/
theorem witness_restart :
    (State.reset, 0) ∈ [(zero.restart, zero.draws), (State.reset, 0)] ∧ State.reset ∈ [zero.restart, State.reset] :=
  ⟨.tail _ (.head _), .tail _ (.head _)⟩

/-! ## Acceptances, the word placed for the host, and what reset leaves -/

/-- V-INT: an NMI pushes the address of the next instruction and goes to 0x0066 in 11 ticks (R657). -/
theorem test_nmi_acceptance :
    (fun t : State => (t.pc, t.sp, t.byteAt 0xFFFE, t.byteAt 0xFFFD, t.iff1, t.iff2, t.spent))
      (after { zero with nmiPend := true, pc := 0x1234, sp := 0xFFFF, iff1 := true }) =
      (0x0066, 0xFFFD, 0x12, 0x34, false, true, 11) := by decide

/-- R658, R660: a mode-1 IRQ leaves the halt, pushes the address after the HALT and goes to 0x0038 in 13 ticks. -/
theorem test_irq_acceptance :
    (fun t : State => (t.pc, t.byteAt 0xFFFD, t.halted, t.iff1, t.irqPend, t.spent))
      (after { zero with irqPend := true, halted := true, pc := 0x1234, sp := 0xFFFF, iff1 := true, im := .im1 }) =
      (0x0038, 0x35, false, false, false, 13) := by decide

/-- R661: a halted cycle costs 4 ticks, counts R and keeps PC. -/
theorem test_halted_cycle :
    (fun t : State => (t.pc, t.ir, t.halted, t.spent)) (after { zero with halted := true, pc := 0x1234, ir := 0x007F }) =
      (0x1234, 0x0000, true, 4) := by decide

/-- The very next step runs the word placed: LD A,0x5A as the first instruction after reset (notes/assumptions/9). -/
theorem test_fetch_word :
    decodeTableWord 16 0x5A3E = some (.ldRN .a 0x5A)
      ∧ (fun t : State => (t.a, t.pc)) (after (State.reset.withFetchWord 16 0x5A3E)) = (0x5A, 0x0002) := by decide

/-- R103: on a bus that is not plain memory, LD A,(HL) takes the draw after its fetch, and the next read takes the one after. -/
theorem test_any_bus_draws :
    exec (.ldRIndHl .a) { zero with agent := .anyBus, hl := 0x8000, draws := 5 } =
      .next (({ zero with agent := .anyBus, hl := 0x8000, draws := 5 }.opFetch.readAt 0x8000).setA
        (Config.memoryAnswer 6 0x8000))
      ∧ ({ zero with agent := .anyBus, draws := 5 }.readAt 0).byteAt 0 = Config.memoryAnswer 6 0 := ⟨rfl, rfl⟩

/-- R80, R700: what reset leaves where the spec gives a value. -/
theorem test_reset :
    (State.reset.pc, State.reset.sp, State.reset.af, State.reset.ir, State.reset.im) =
      (0x0000, 0xFFFF, 0xFFFF, 0x0000, IntMode.im0) := by decide

end Sys2Proof.Tests
end

section
/-! SUPPORT. Taking an interrupt, operation by operation, in the form the result statements have (`s.through cs` with the fields
that change), and from it the IRQ acceptance of each mode (spec/60_exceptions.md R658 to R660). -/

namespace Sys2Proof.Machine

/-! ### The operations of an acceptance -/

/-- M1 counting leaves I, the high byte of IR, as it is (R105). -/
@[simp] theorem hi8_countedIr (ir : Word) : hi8 (countedIr ir) = hi8 ir := hi8_withLo _ _

/-- Leaving the halt is one update, whether or not the machine is in it. -/
theorem State.leaveHalt_eq (s : State) :
    s.leaveHalt = { s with halted := false, pc := if s.halted then s.pc + 1 else s.pc } := by
  unfold State.leaveHalt
  cases h : s.halted with
  | true => rfl
  | false => cases s; cases h; rfl

theorem State.push_through (s : State) (w : Word) :
    s.push w = { s.through [cWrite (s.sp - 1) (hi8 w), cWrite (s.sp - 2) (lo8 w)] with
      sp := s.sp - 2, mem := (s.mem.write (s.sp - 1).toNat (hi8 w)).write (s.sp - 2).toNat (lo8 w) } := by
  have h : s.sp - 1 - 1 = s.sp - 2 := by bv_omega
  rw [← h]
  rfl

theorem State.readWordAt_through (s : State) (a : Word) :
    s.readWordAt a = s.through [s.cRead 0 a, s.cRead 1 (a + 1)] := by
  rw [State.readWordAt, State.readAt_through, State.readAt_through, State.through_through, State.through_cRead]
  rfl

/-- What the two acceptances share, NMI and IRQ: one acknowledge at IR and the two writes of the push. -/
theorem State.takeInterrupt_through (s : State) (n : Nat) (b : Bool) :
    let pc := if s.halted then s.pc + 1 else s.pc
    s.takeInterrupt n b = { s.through [s.cAck n, cWrite (s.sp - 1) (hi8 pc), cWrite (s.sp - 2) (lo8 pc)] with
      halted := false, iff1 := false, iff2 := b, pc := pc, ir := countedIr s.ir, sp := s.sp - 2
      mem := (s.mem.write (s.sp - 1).toNat (hi8 pc)).write (s.sp - 2).toNat (lo8 pc) } := by
  simp only [State.takeInterrupt, State.leaveHalt_eq, State.ack_through, State.push_through]
  rfl

/-- The vector is drawn first, then the table is read at cat(I, vector). -/
theorem State.vectorJump_through (s : State) :
    let tab := cat (hi8 s.ir) (Config.im2Vector s.draws)
    let v := { s with draws := s.draws + 1 }
    s.vectorJump = (v.through [v.cRead 0 tab, v.cRead 1 (tab + 1)]).goto (cat (v.reply 1 (tab + 1)) (v.reply 0 tab)) := by
  simp only [State.vectorJump, State.readWordAt_through, State.wordAt]

/-! ### The IRQ, mode by mode -/

theorem State.acceptIrq_fixed {s : State} (h : s.im ≠ .im2) :
    s.acceptIrq = ({ s with irqPend := false }.takeInterrupt 7 false).goto 0x0038 := by
  unfold State.acceptIrq
  cases hm : s.im with
  | im0 => rfl
  | im1 => rfl
  | im2 => exact absurd hm h

theorem State.acceptIrq_vectored {s : State} (h : s.im = .im2) :
    s.acceptIrq = ({ s with irqPend := false }.takeInterrupt 7 false).vectorJump := by
  rw [State.acceptIrq, h]

/-- Settles O54: the step is the acceptance, the shared part of an acceptance is `State.takeInterrupt_through`, and each mode
ends in its own jump. -/
theorem irqAcceptance : Obligations.IrqAcceptance := by
  intro s hnmi hirq hiff hei
  have hstep : step s = .next s.acceptIrq := step_irq hnmi (by simp [State.irqRecognised, hirq, hiff, hei])
  constructor
  · intro him
    rw [hstep, State.acceptIrq_fixed him, State.takeInterrupt_through]
    rfl
  · intro him
    rw [hstep, State.acceptIrq_vectored him, State.takeInterrupt_through, State.vectorJump_through, hi8_countedIr]
    rfl

end Sys2Proof.Machine
end

section
/-! SUPPORT. The host accessors as the one account of what replacing an item does (spec/10_state.md R51, R79): which items a write
reaches, and that the register writes of the instructions are such writes. -/

namespace Sys2Proof.Machine

/-! ### A read after a write -/

/-- A word written is read back, and no other word changes. -/
theorem State.getWord_putWord (s : State) (p q : WordItem) (w : Word) :
    (s.putWord p w).getWord q = if q = p then w else s.getWord q := by
  cases p <;> cases q <;> rfl

theorem State.getWord_putWord_same (s : State) (p : WordItem) (w : Word) : (s.putWord p w).getWord p = w := by
  rw [State.getWord_putWord, if_pos rfl]

theorem State.getWord_putWord_ne (s : State) {p q : WordItem} (w : Word) (h : q ≠ p) :
    (s.putWord p w).getWord q = s.getWord q := by
  rw [State.getWord_putWord, if_neg h]

/-- A half reads as before when its word does. -/
theorem State.getByte_of_getWord {s t : State} {k : ByteItem} (h : t.getWord k.pair = s.getWord k.pair) :
    t.getByte k = s.getByte k := by
  rw [State.getByte, State.getByte, h]

/-- A half written leaves every other half, that of its own pair included. -/
theorem State.getByte_putByte_ne (s : State) {j k : ByteItem} (v : Byte) (h : k ≠ j) :
    (s.putByte j v).getByte k = s.getByte k := by
  obtain ⟨p, x⟩ := j
  obtain ⟨q, y⟩ := k
  by_cases hq : q = p
  · subst hq
    cases x <;> cases y
    · exact absurd rfl h
    · simp [State.putByte, State.getByte, State.getWord_putWord_same]
    · simp [State.putByte, State.getByte, State.getWord_putWord_same]
    · exact absurd rfl h
  · apply State.getByte_of_getWord
    cases x <;> exact s.getWord_putWord_ne _ hq

/-! ### The register writes of the instructions, as accessor writes -/

theorem State.setReg_eq (s : State) (r : Reg8) (v : Byte) : s.setReg r v = s.putByte r.item v := by cases r <;> rfl
theorem State.setRp_eq (s : State) (p : Rp) (w : Word) : s.setRp p w = s.putWord p.word w := by cases p <;> rfl
theorem State.setRp2_eq (s : State) (p : Rp2) (w : Word) : s.setRp2 p w = s.putWord p.word w := by cases p <;> rfl
theorem State.setIdx_eq (s : State) (x : Index) (w : Word) : s.setIdx x w = s.putWord x.word w := by cases x <;> rfl
theorem State.setHalf_eq (s : State) (x : Index) (h : Half) (v : Byte) : s.setHalf x h v = s.putByte ⟨x.word, h⟩ v := by
  cases x <;> cases h <;> rfl

/-! ### Flags -/

/-- Bit n of the byte with bit i alone. -/
theorem bit_one_shiftLeft {n : Nat} (i : Nat) (hn : n < 8) : bit ((1 : Byte) <<< i) n = decide (n = i) := by
  change (BitVec.twoPow 8 i).getLsbD n = decide (n = i)
  rw [BitVec.getLsbD_twoPow]
  by_cases h : i = n
  · simp [h, hn]
  · simp [h, Ne.symm h]

/-- Writing a flag changes the bit of its index and no other. -/
theorem bit_putFlag (f : Byte) (i : Nat) (v : Bool) {n : Nat} (hn : n < 8) :
    bit (if v then f ||| (1 : Byte) <<< i else f &&& ~~~((1 : Byte) <<< i)) n = if n = i then v else bit f n := by
  have hm : ((1 : Byte) <<< i).getLsbD n = decide (n = i) := bit_one_shiftLeft i hn
  cases v
  · simp only [bit, Bool.false_eq_true, if_false, BitVec.getLsbD_and, BitVec.getLsbD_not, hm, hn]
    by_cases h : n = i <;> simp [h]
  · simp only [bit, if_true, BitVec.getLsbD_or, hm]
    by_cases h : n = i <;> simp [h]

/-- Settles O60: a write is `State.putWord` on the pair, a flag is one bit of F, and the rest are the accessors' own cases. -/
theorem accessorsStoreExactly : Obligations.AccessorsStoreExactly := by
  intro s
  refine ⟨fun _ => rfl, rfl, fun k w k' => s.getWord_putWord k k' w, fun k v => ⟨rfl, rfl, rfl, rfl⟩,
    fun k b => ⟨_, rfl, fun n hn => bit_putFlag s.f k.index b hn⟩, rfl, fun _ => rfl, fun _ => rfl, rfl,
    fun n => ⟨?_, ?_⟩,
    fun _ _ => rfl, fun _ _ => rfl, fun _ _ => rfl, fun _ _ => rfl, fun _ => rfl, fun _ => rfl, fun _ _ => rfl, rfl,
    fun _ => ⟨rfl, rfl⟩⟩
  · simp only [List.forall_mem_cons]
    refine ⟨?_, ?_, ?_, by simp⟩ <;>
    · rintro rfl
      exact ⟨rfl, fun h => by simp [State.getIm, h]⟩
  · intro h
    obtain ⟨m, rfl⟩ : ∃ m, n = m + 3 := ⟨n - 3, by omega⟩
    rfl

end Sys2Proof.Machine
end

section
/-! SUPPORT. The lookup tables of the flags by the bits they look at (spec/10_state.md R63 to R70): an index is three bits, and
the carry into a bit is fixed by the three bits below it. -/

namespace Sys2Proof

/-! ### Which bits an index holds (R66, R69) -/

/-- A byte masked by 0x88 is its bits 3 and 7. -/
theorem and_0x88 (v : Byte) : v &&& 0x88 = when (bit v 3) 0x08 ||| when (bit v 7) 0x80 := by
  have h : (0x88 : Byte) = BitVec.twoPow 8 3 ||| BitVec.twoPow 8 7 := rfl
  rw [h, BitVec.and_or_distrib_left, BitVec.and_twoPow, BitVec.and_twoPow]
  rfl

/-- A word masked by 0x8800 is its bits 11 and 15. -/
theorem and_0x8800 (w : Word) :
    w &&& 0x8800 = (if w.getLsbD 11 then 0x0800 else 0) ||| (if w.getLsbD 15 then 0x8000 else 0) := by
  have h : (0x8800 : Word) = BitVec.twoPow 16 11 ||| BitVec.twoPow 16 15 := rfl
  rw [h, BitVec.and_or_distrib_left, BitVec.and_twoPow, BitVec.and_twoPow]
  rfl

/-- The 3-bit code of a table, from its bits, lowest first. -/
def code3 (a b r : Bool) : Nat := a.toNat + 2 * b.toNat + 4 * r.toNat

theorem code3_lt (a b r : Bool) : code3 a b r < 8 := by
  revert a b r
  decide

theorem lookup8_eq (a b r : Byte) :
    lookup8 a b r = code3 (bit a 3) (bit b 3) (bit r 3) + 16 * code3 (bit a 7) (bit b 7) (bit r 7) := by
  simp only [lookup8, and_0x88]
  generalize bit a 3 = a3, bit b 3 = b3, bit r 3 = r3, bit a 7 = a7, bit b 7 = b7, bit r 7 = r7
  revert a3 b3 r3 a7 b7 r7
  decide

theorem lookup16_eq (a b r : Word) :
    lookup16 a b r = code3 (a.getLsbD 11) (b.getLsbD 11) (r.getLsbD 11)
      + 16 * code3 (a.getLsbD 15) (b.getLsbD 15) (r.getLsbD 15) := by
  simp only [lookup16, and_0x8800]
  generalize a.getLsbD 11 = a3, b.getLsbD 11 = b3, r.getLsbD 11 = r3, a.getLsbD 15 = a7, b.getLsbD 15 = b7, r.getLsbD 15 = r7
  revert a3 b3 r3 a7 b7 r7
  decide

theorem lookup8_mod (a b r : Byte) : lookup8 a b r % 8 = code3 (bit a 3) (bit b 3) (bit r 3) := by
  have := code3_lt (bit a 3) (bit b 3) (bit r 3)
  rw [lookup8_eq]
  omega

theorem lookup8_div (a b r : Byte) : lookup8 a b r / 16 = code3 (bit a 7) (bit b 7) (bit r 7) := by
  have := code3_lt (bit a 3) (bit b 3) (bit r 3)
  rw [lookup8_eq]
  omega

theorem lookup16_mod (a b r : Word) : lookup16 a b r % 8 = code3 (a.getLsbD 11) (b.getLsbD 11) (r.getLsbD 11) := by
  have := code3_lt (a.getLsbD 11) (b.getLsbD 11) (r.getLsbD 11)
  rw [lookup16_eq]
  omega

theorem lookup16_div (a b r : Word) : lookup16 a b r / 16 = code3 (a.getLsbD 15) (b.getLsbD 15) (r.getLsbD 15) := by
  have := code3_lt (a.getLsbD 11) (b.getLsbD 11) (r.getLsbD 11)
  rw [lookup16_eq]
  omega

/-! ### The tables as functions of the three bits (R67, R68) -/

theorem ovAdd_code3 (a b r : Bool) : ovAdd (code3 a b r) = when (a == b && r != a) 0x04 := by
  revert a b r
  decide

theorem ovSub_code3 (a b r : Bool) : ovSub (code3 a b r) = when (a != b && r != a) 0x04 := by
  revert a b r
  decide

/-- H of an addition: the carry out of bit 3, from that bit of the operands and the carry that came in. -/
theorem hcAdd_code3 (a b r : Bool) : hcAdd (code3 a b r) = when (Bool.atLeastTwo a b (a ^^ b ^^ r)) 0x10 := by
  revert a b r
  decide

/-- H of a subtraction: the carry out of bit 3 in the addition `r + b` that restores the first operand. -/
theorem hcSub_code3 (a b r : Bool) : hcSub (code3 a b r) = when (Bool.atLeastTwo r b (a ^^ b ^^ r)) 0x10 := by
  revert a b r
  decide

/-! ### The carry into a bit -/

/-- The carry as a word: added after the operands. -/
theorem ite_one_eq_setWidth {w : Nat} (c : Bool) : (if c then 1 else 0 : BitVec w) = BitVec.setWidth w (BitVec.ofBool c) := by
  cases c
  · simp
  · exact BitVec.eq_of_toNat_eq (by simp)

/-- In `a + b + c = r`, bit i of the operands and the sum gives the carry into bit i + 1. -/
theorem getLsbD_xor_add {w : Nat} (a b : BitVec w) (c : Bool) {i : Nat} (hi : i + 1 < w) :
    let r := a + b + (if c then 1 else 0)
    (a ^^^ b ^^^ r).getLsbD (i + 1)
      = Bool.atLeastTwo (a.getLsbD i) (b.getLsbD i) (a.getLsbD i ^^ b.getLsbD i ^^ r.getLsbD i) := by
  have xor_cancel (x y z : Bool) : (x ^^ y ^^ (x ^^ (y ^^ z))) = z := by revert x y z; decide
  simp only [ite_one_eq_setWidth, BitVec.getLsbD_xor, BitVec.getLsbD_add_add_bool hi,
    BitVec.getLsbD_add_add_bool (Nat.lt_of_succ_lt hi), xor_cancel, BitVec.carry_succ]

/-- In `a - b - c = r`, which is `r + b + c = a`, likewise. -/
theorem getLsbD_xor_sub {w : Nat} (a b : BitVec w) (c : Bool) {i : Nat} (hi : i + 1 < w) :
    let r := a - b - (if c then 1 else 0)
    (a ^^^ b ^^^ r).getLsbD (i + 1)
      = Bool.atLeastTwo (r.getLsbD i) (b.getLsbD i) (a.getLsbD i ^^ b.getLsbD i ^^ r.getLsbD i) := by
  intro r
  have hr : r + b + (if c then 1 else 0) = a := by
    rw [BitVec.add_assoc, BitVec.add_comm b, ← BitVec.add_assoc, BitVec.sub_add_cancel, BitVec.sub_add_cancel]
  have h := getLsbD_xor_add r b c hi
  simp only [hr] at h
  rw [BitVec.xor_comm (a ^^^ b), BitVec.xor_comm a b, ← BitVec.xor_assoc, h]
  congr 1
  cases a.getLsbD i <;> cases b.getLsbD i <;> cases r.getLsbD i <;> rfl

/-- Settles O23: an index is three bits, the overflow tables are their own formulas, and the half-carry tables give the carry into
the next bit. -/
theorem halfCarryAndOverflowFormulas : Obligations.HalfCarryAndOverflowFormulas := by
  refine ⟨fun a b c => ⟨?_, ?_⟩, fun a b c => ⟨?_, ?_⟩, fun a b c => ⟨?_, ?_⟩, fun a b c => ⟨?_, ?_⟩⟩
  · rw [lookup8_mod, hcAdd_code3]
    exact congrArg (when · 0x10) (getLsbD_xor_add a b c (by decide)).symm
  · rw [lookup8_div, ovAdd_code3]
  · rw [lookup8_mod, hcSub_code3]
    exact congrArg (when · 0x10) (getLsbD_xor_sub a b c (by decide)).symm
  · rw [lookup8_div, ovSub_code3]
  · rw [lookup16_mod, hcAdd_code3]
    exact congrArg (when · 0x10) (getLsbD_xor_add a b c (by decide)).symm
  · rw [lookup16_div, ovAdd_code3]
  · rw [lookup16_mod, hcSub_code3]
    exact congrArg (when · 0x10) (getLsbD_xor_sub a b c (by decide)).symm
  · rw [lookup16_div, ovSub_code3]

/-! ### SZ53, PAR and SZ53P (R63 to R65) -/

theorem bit_or (u v : Byte) (k : Nat) : bit (u ||| v) k = (bit u k || bit v k) := BitVec.getLsbD_or
theorem bit_and (u v : Byte) (k : Nat) : bit (u &&& v) k = (bit u k && bit v k) := BitVec.getLsbD_and
theorem bit_when (b : Bool) (v : Byte) (k : Nat) : bit (when b v) k = (b && bit v k) := by cases b <;> simp [when, bit]

/-- SZ53 is bits 7, 5 and 3 of v and Z. -/
theorem bit_sz53 (v : Byte) (k : Nat) : bit (sz53 v) k = (bit v k && bit 0xA8 k || v == 0 && bit flagZ k) := by
  rw [sz53, bit_or, bit_and, bit_when]

/-- PAR counts the 1-bits as numbers do. -/
theorem par_eq (v : Byte) :
    par v = if ((List.range 8).filter (fun k => v.toNat / 2 ^ k % 2 = 1)).length % 2 = 0 then 0x04 else 0x00 := by
  have h : bit v = fun k => decide (v.toNat / 2 ^ k % 2 = 1) := funext fun k => Nat.testBit_eq_decide_div_mod_eq
  rw [par, h, List.countP_eq_length_filter]
  simp only [when, beq_iff_eq, flagPV]

/-- Settles O22: SZ53 bit by bit, PAR by counting. -/
theorem flagTablesByValue : Obligations.FlagTablesByValue := by
  intro v
  refine ⟨?_, ?_, ?_, par_eq v, rfl⟩
  · simp only [List.forall_mem_cons, bit_sz53]
    simp [bit, flagZ]
  · rw [bit_sz53]
    simp [bit, flagZ]
  · simp only [List.forall_mem_cons, bit_sz53]
    simp [bit, flagZ]

end Sys2Proof
end

section
/-! SUPPORT. Calls and returns (spec/42_base_control.md R347 to R351) in the form the result statements have. -/

namespace Sys2Proof.Machine

theorem State.opFetch_operand_operand (s : State) :
    s.opFetch.operand.operand = s.ran 3 [s.cFetch s.pc, s.cRead 1 (s.pc + 1), s.cRead 2 (s.pc + 2)] := by
  rw [State.opFetch_ran, State.ran_operand, State.ran_operand]
  rfl

/-- Popping the return address after the cycles of a row. -/
theorem State.ran_popPc (s : State) (n : Word) (cs : List Cycle) :
    (s.ran n cs).popPc = { s.ran n (cs ++ [s.cRead (answers cs) s.sp, s.cRead (answers cs + 1) (s.sp + 1)]) with
      pc := cat (s.reply (answers cs + 1) (s.sp + 1)) (s.reply (answers cs) s.sp)
      wz := cat (s.reply (answers cs + 1) (s.sp + 1)) (s.reply (answers cs) s.sp), sp := s.sp + 2 } := by
  apply State.ext_clock <;> simp [BitVec.add_assoc, Nat.add_assoc]

/-- Pushing a word after the cycles of a row. -/
theorem State.ran_push (s : State) (n : Word) (cs : List Cycle) (w : Word) :
    (s.ran n cs).push w = { s.ran n (cs ++ [cWrite (s.sp - 1) (hi8 w), cWrite (s.sp - 2) (lo8 w)]) with
      sp := s.sp - 2, mem := (s.mem.write (s.sp - 1).toNat (hi8 w)).write (s.sp - 2).toNat (lo8 w) } := by
  rw [State.push_through, State.ran_through]
  rfl

/-- The taken part of a call: the write of WZ before it may as well come after. -/
theorem State.callTo_ran (s : State) (n : Word) (cs : List Cycle) (nn : Word) :
    { s.ran n cs with wz := nn }.callTo nn
      = { s.ran n (cs ++ cIdle (s.pc + n - 1) 1 ++ [cWrite (s.sp - 1) (hi8 (s.pc + n)), cWrite (s.sp - 2) (lo8 (s.pc + n))]) with
      pc := nn, wz := nn, sp := s.sp - 2
      mem := (s.mem.write (s.sp - 1).toNat (hi8 (s.pc + n))).write (s.sp - 2).toNat (lo8 (s.pc + n)) } := by
  apply State.ext_clock <;> simp [State.callTo, BitVec.sub_sub]

/-- Copying IFF2 into IFF1 does not touch the pop. -/
theorem State.returnFromInterrupt_eq (s : State) : s.returnFromInterrupt = { s.popPc with iff1 := s.iff2 } := rfl

theorem rst_target (y : BitVec 3) : y.setWidth 16 <<< 3 = BitVec.ofNat 16 (8 * y.toNat) := by
  apply BitVec.eq_of_toNat_eq
  simp [Nat.shiftLeft_eq]
  omega

/-- Settles O41: each row is `State.ran` after its fetches, then the call or the pop joins its cycles. -/
theorem callsAndReturns : Obligations.CallsAndReturns := by
  refine ⟨fun _ => rfl, fun s => ?_⟩
  have hcall : ∀ nn, exec (.callNn nn) s = .next ({ s.opFetch.operand.operand with wz := nn }.callTo nn) := fun _ => rfl
  have hret : s.opFetch.popPc = { s.ran 1 [s.cFetch s.pc, s.cRead 1 s.sp, s.cRead 2 (s.sp + 1)] with
      pc := cat (s.reply 2 (s.sp + 1)) (s.reply 1 s.sp), wz := cat (s.reply 2 (s.sp + 1)) (s.reply 1 s.sp)
      sp := s.sp + 2 } := by rw [State.opFetch_ran, State.ran_popPc]; rfl
  have hreti : s.opFetch.returnFromInterrupt = { s.ran 1 [s.cFetch s.pc, s.cRead 1 s.sp, s.cRead 2 (s.sp + 1)] with
      pc := cat (s.reply 2 (s.sp + 1)) (s.reply 1 s.sp), wz := cat (s.reply 2 (s.sp + 1)) (s.reply 1 s.sp)
      sp := s.sp + 2, iff1 := s.iff2 } := by rw [State.returnFromInterrupt_eq, hret]; rfl
  refine ⟨fun nn => ?_, fun cc nn => ?_, fun y => ?_, next_congr hret, fun cc => ?_, next_congr hreti,
    fun y => next_congr hreti⟩
  · have h : s.pc + 3 - 1 = s.pc + 2 := by bv_omega
    rw [hcall, State.opFetch_operand_operand, State.callTo_ran, h]
    rfl
  · rw [hcall, State.opFetch_operand_operand]
    simp only [exec, execCallCcNn, State.opFetch_operand_operand]
    exact apply_ite Host.Outcome.next _ _ _
  · simp only [exec, execRst, rst_target, State.opFetch_ran, State.ran_internal, State.ran_push]
    rfl
  · simp only [exec, execRetCc, State.opFetch_ran, State.ran_internal, State.ran_popPc]
    rfl

end Sys2Proof.Machine
end

section
/-! SUPPORT. The exchanges done twice (spec/10_state.md R53), and the values of a restart (R80, R700). -/

namespace Sys2Proof.Machine

/-- Settles O34: what each exchange swaps is its own equation, and twice is the identity word by word. -/
theorem exchangesAreInvolutions : Obligations.ExchangesAreInvolutions := by
  intro s
  constructor
  · refine ⟨_, _, rfl, rfl, rfl, rfl, rfl, rfl, rfl, rfl, rfl, rfl, fun k hpc hir => ?_, ?_, ?_⟩
    · cases k with
      | pc => exact absurd rfl hpc
      | ir => exact absurd rfl hir
      | _ => simp [State.getWord]
    · simp [State.i]
    · simp [State.i]
  · refine ⟨_, _, rfl, rfl, rfl, rfl, fun k haf hafAlt hpc hir => ?_, fun k hpc hir => ?_, ?_, ?_⟩
    · cases k with
      | af => exact absurd rfl haf
      | afAlt => exact absurd rfl hafAlt
      | pc => exact absurd rfl hpc
      | ir => exact absurd rfl hir
      | _ => simp [State.getWord]
    · cases k with
      | pc => exact absurd rfl hpc
      | ir => exact absurd rfl hir
      | _ => simp [State.getWord]
    · simp [State.i]
    · simp [State.i]

/-- Settles O59: the values of a restart and of the reset state stand in their definitions, element by element. -/
theorem restartValues : Obligations.RestartValues := by
  intro s
  refine ⟨?_, rfl, rfl, rfl, rfl, rfl, ?_⟩
  · simp [State.restart, State.reset]
  · simp [State.restart, State.reset]

end Sys2Proof.Machine
end

section
/-! SUPPORT. The frame of a meaning: which register halves a chain of shared operations may write, and that it leaves the control
bits alone. One rule per shared operation; the frame of a meaning then follows its definition, operation by operation. A rule's
side condition, that the list holds what the operation writes, is closed by `simp` where the list is known. -/

namespace Sys2Proof.Machine

/-- What is neither a register, nor memory, nor a record of the bus: the interrupt and control state of spec/10_state.md section
6, and the bus the core is connected to. -/
structure Control where
  iff1 : Bool
  iff2 : Bool
  im : IntMode
  halted : Bool
  eiBlock : Bool
  nmiPend : Bool
  irqPend : Bool
  agent : BusAgent

def State.control (s : State) : Control :=
  ⟨s.iff1, s.iff2, s.im, s.halted, s.eiBlock, s.nmiPend, s.irqPend, s.agent⟩

/-- From `s` to `t` no register half outside `d` changes, PC and R left aside. -/
def State.RegsKept (d : List ByteItem) (s t : State) : Prop :=
  ∀ k : ByteItem, k ∉ d → k.pair ≠ .pc → k ≠ ⟨.ir, .low⟩ → t.getByte k = s.getByte k

/-- From `s` to `t` no control bit and no register half outside `d` changes, PC and R left aside. -/
structure State.Keeps (d : List ByteItem) (s t : State) : Prop where
  control : t.control = s.control
  regs : s.RegsKept d t

namespace State.Keeps

variable {d : List ByteItem} {s t u : State}

theorem refl (d : List ByteItem) (s : State) : s.Keeps d s := ⟨rfl, fun _ _ _ _ => rfl⟩

theorem trans (h : s.Keeps d t) (h' : t.Keeps d u) : s.Keeps d u :=
  ⟨h'.control.trans h.control, fun k hk hpc hr => (h'.regs k hk hpc hr).trans (h.regs k hk hpc hr)⟩

/-! ### Writing a register -/

theorem putWord (h : s.Keeps d t) (p : WordItem) (w : Word) (hp : both p ⊆ d := by simp [both]) :
    s.Keeps d (t.putWord p w) := by
  refine h.trans ⟨by cases p <;> rfl, fun k hk _ _ => State.getByte_of_getWord (t.getWord_putWord_ne w ?_)⟩
  rintro rfl
  obtain ⟨p, x⟩ := k
  cases x
  · exact hk (hp (.head _))
  · exact hk (hp (.tail _ (.head _)))

theorem putByte (h : s.Keeps d t) (j : ByteItem) (v : Byte) (hj : j ∈ d := by simp [both]) :
    s.Keeps d (t.putByte j v) := by
  refine h.trans ⟨?_, fun k hk _ _ => t.getByte_putByte_ne v fun hkj => hk (hkj ▸ hj)⟩
  obtain ⟨p, x⟩ := j
  cases x <;> cases p <;> rfl

theorem wz (h : s.Keeps d t) (w : Word) (hw : both .wz ⊆ d := by simp [both]) : s.Keeps d { t with wz := w } :=
  h.putWord .wz w hw
theorem hl (h : s.Keeps d t) (w : Word) (hw : both .hl ⊆ d := by simp [both]) : s.Keeps d { t with hl := w } :=
  h.putWord .hl w hw
theorem sp (h : s.Keeps d t) (w : Word) (hw : both .sp ⊆ d := by simp [both]) : s.Keeps d { t with sp := w } :=
  h.putWord .sp w hw

theorem setA (h : s.Keeps d t) {v : Byte} (hA : itemA ∈ d := by simp [both]) : s.Keeps d (t.setA v) := h.putByte itemA v hA
theorem setF (h : s.Keeps d t) {v : Byte} (hF : itemF ∈ d := by simp [both]) : s.Keeps d (t.setF v) := h.putByte itemF v hF
theorem setB (h : s.Keeps d t) {v : Byte} (hB : ⟨.bc, .high⟩ ∈ d := by simp [both]) : s.Keeps d (t.setB v) :=
  h.putByte ⟨.bc, .high⟩ v hB

theorem setAF (h : s.Keeps d t) {v : Byte × Byte} (hA : itemA ∈ d := by simp [both]) (hF : itemF ∈ d := by simp [both]) :
    s.Keeps d (t.setAF v) :=
  h.putWord .af _ (List.cons_subset.2 ⟨hA, List.cons_subset.2 ⟨hF, List.nil_subset _⟩⟩)

theorem setReg (h : s.Keeps d t) {r : Reg8} {v : Byte} (hr : r.item ∈ d := by simp [both]) : s.Keeps d (t.setReg r v) := by
  rw [State.setReg_eq]
  exact h.putByte _ v hr

theorem setRp (h : s.Keeps d t) {p : Rp} {w : Word} (hp : both p.word ⊆ d := by simp [both]) : s.Keeps d (t.setRp p w) := by
  rw [State.setRp_eq]
  exact h.putWord _ w hp

theorem setRp2 (h : s.Keeps d t) {p : Rp2} {w : Word} (hp : both p.word ⊆ d := by simp [both]) :
    s.Keeps d (t.setRp2 p w) := by
  rw [State.setRp2_eq]
  exact h.putWord _ w hp

theorem setIdx (h : s.Keeps d t) {x : Index} {w : Word} (hx : both x.word ⊆ d := by simp [both]) : s.Keeps d (t.setIdx x w) := by
  rw [State.setIdx_eq]
  exact h.putWord _ w hx

theorem setHalf (h : s.Keeps d t) {x : Index} {i : Half} {v : Byte} (hx : ⟨x.word, i⟩ ∈ d := by simp [both]) :
    s.Keeps d (t.setHalf x i v) := by
  rw [State.setHalf_eq]
  exact h.putByte _ v hx

/-! ### Transactions, fetches and the stack -/

theorem pc (h : s.Keeps d t) (w : Word) : s.Keeps d { t with pc := w } :=
  h.trans ⟨rfl, fun _ _ hpc _ => State.getByte_of_getWord (t.getWord_putWord_ne w hpc)⟩

/-- Cycles move no register. -/
theorem through (h : s.Keeps d t) {cs : List Cycle} : s.Keeps d (t.through cs) :=
  h.trans ⟨rfl, fun ⟨p, _⟩ _ _ _ => State.getByte_of_getWord (by cases p <;> rfl)⟩

theorem mem (h : s.Keeps d t) (m : Memory) : s.Keeps d { t with mem := m } :=
  h.trans ⟨rfl, fun ⟨p, _⟩ _ _ _ => State.getByte_of_getWord (by cases p <;> rfl)⟩

theorem transact (h : s.Keeps d t) {k : BusKind} {a : Word} {n : Nat} {v : Option Byte} :
    s.Keeps d (t.transact k a n v) :=
  h.trans ⟨rfl, fun ⟨p, _⟩ _ _ _ => State.getByte_of_getWord (by cases p <;> rfl)⟩

/-- R counts, and I is kept (R105). -/
theorem refresh (h : s.Keeps d t) : s.Keeps d t.refresh :=
  h.trans ⟨rfl, fun _ _ _ hr => t.getByte_putByte_ne (j := ⟨.ir, .low⟩) _ hr⟩

theorem opFetch (h : s.Keeps d t) : s.Keeps d t.opFetch := h.transact.refresh.pc _
theorem operand (h : s.Keeps d t) : s.Keeps d t.operand := h.transact.pc _
theorem readAt (h : s.Keeps d t) {a : Word} : s.Keeps d (t.readAt a) := h.transact
theorem writeAt (h : s.Keeps d t) {a : Word} {v : Byte} : s.Keeps d (t.writeAt a v) := h.transact.mem _
theorem ioReadAt (h : s.Keeps d t) {p : Word} : s.Keeps d (t.ioReadAt p) := h.transact
theorem ioWriteAt (h : s.Keeps d t) {p : Word} {v : Byte} : s.Keeps d (t.ioWriteAt p v) := h.transact

theorem internal (h : s.Keeps d t) {a : Word} {n : Nat} : s.Keeps d (t.internal a n) := by
  rw [State.internal_through]
  exact h.through

theorem ite (h : s.Keeps d t) (h' : s.Keeps d u) {c : Prop} [Decidable c] : s.Keeps d (if c then t else u) := by
  split
  · exact h
  · exact h'

theorem goto (h : s.Keeps d t) {a : Word} (hw : both .wz ⊆ d := by simp [both]) : s.Keeps d (t.goto a) :=
  (h.pc a).wz a hw

theorem pushByte (h : s.Keeps d t) {v : Byte} (hsp : both .sp ⊆ d := by simp [both]) : s.Keeps d (t.pushByte v) :=
  (h.sp _ hsp).writeAt

theorem push (h : s.Keeps d t) {w : Word} (hsp : both .sp ⊆ d := by simp [both]) : s.Keeps d (t.push w) :=
  (h.pushByte hsp).pushByte hsp

theorem popByte (h : s.Keeps d t) (hsp : both .sp ⊆ d := by simp [both]) : s.Keeps d t.popByte := h.readAt.sp _ hsp

theorem pop (h : s.Keeps d t) (hsp : both .sp ⊆ d := by simp [both]) : s.Keeps d t.pop := (h.popByte hsp).popByte hsp

theorem popPc (h : s.Keeps d t) (hsp : both .sp ⊆ d := by simp [both]) (hw : both .wz ⊆ d := by simp [both]) :
    s.Keeps d t.popPc := (h.pop hsp).goto hw

theorem modifyAt (h : s.Keeps d t) {a : Word} {g : Byte → Byte} : s.Keeps d (t.modifyAt a g) := h.readAt.internal.writeAt

theorem exchangeTop (h : s.Keeps d t) {w : Word} : s.Keeps d (t.exchangeTop w) :=
  h.readAt.readAt.internal.writeAt.writeAt.internal

theorem indexed (h : s.Keeps d t) {x : Index} {i : Byte} (hw : both .wz ⊆ d := by simp [both]) :
    s.Keeps d (t.indexed x i) :=
  h.opFetch.operand.internal.wz _ hw

theorem indexedCb (h : s.Keeps d t) {x : Index} {i : Byte} (hw : both .wz ⊆ d := by simp [both]) :
    s.Keeps d (t.indexedCb x i) :=
  h.operand.operand.internal.wz _ hw

/-! ### Several registers at once -/

theorem deHl (h : s.Keeps d t) (v w : Word) (hd : both .de ⊆ d := by simp [both]) (hh : both .hl ⊆ d := by simp [both]) :
    s.Keeps d { t with de := v, hl := w } := (h.putWord .de v hd).hl w hh

theorem hlWz (h : s.Keeps d t) (v w : Word) (hh : both .hl ⊆ d := by simp [both]) (hw : both .wz ⊆ d := by simp [both]) :
    s.Keeps d { t with hl := v, wz := w } := (h.hl v hh).wz w hw

theorem bcHl (h : s.Keeps d t) (v w : Word) (hb : both .bc ⊆ d := by simp [both]) (hh : both .hl ⊆ d := by simp [both]) :
    s.Keeps d { t with bc := v, hl := w } := (h.putWord .bc v hb).hl w hh

theorem bcDeHl (h : s.Keeps d t) (u v w : Word) (hb : both .bc ⊆ d := by simp [both]) (hd : both .de ⊆ d := by simp [both])
    (hh : both .hl ⊆ d := by simp [both]) : s.Keeps d { t with bc := u, de := v, hl := w } :=
  (h.putWord .bc u hb).deHl v w hd hh

theorem wzPc (h : s.Keeps d t) (v w : Word) (hw : both .wz ⊆ d := by simp [both]) : s.Keeps d { t with wz := v, pc := w } :=
  (h.wz v hw).pc w

/-! ### Shared meanings -/

/-- CP writes F alone, the other operations A and F (R271). -/
theorem alu (h : s.Keeps d t) {o : AluOp} {v : Byte} (ho : o.dest ⊆ d := by simp [AluOp.dest]) : s.Keeps d (t.alu o v) := by
  cases o with
  | cp => exact h.setF (ho (.head _))
  | _ => exact h.setAF (ho (.head _)) (ho (.tail _ (.head _)))

theorem addPair (h : s.Keeps d t) {v w : Word} (hF : itemF ∈ d := by simp) (hw : both .wz ⊆ d := by simp [both]) :
    s.Keeps d (t.addPair v w) := (h.internal.setF hF).wz _ hw

theorem incMem (h : s.Keeps d t) {a : Word} (hF : itemF ∈ d := by simp) : s.Keeps d (t.incMem a) := h.modifyAt.setF hF
theorem decMem (h : s.Keeps d t) {a : Word} (hF : itemF ∈ d := by simp) : s.Keeps d (t.decMem a) := h.modifyAt.setF hF

theorem rotMem (h : s.Keeps d t) {o : RotOp} {a : Word} (hF : itemF ∈ d := by simp) : s.Keeps d (t.rotMem o a) :=
  h.modifyAt.setF hF

theorem readWordAt (h : s.Keeps d t) {a : Word} : s.Keeps d (t.readWordAt a) := h.readAt.readAt
theorem writeWordAt (h : s.Keeps d t) {a w : Word} : s.Keeps d (t.writeWordAt a w) := h.writeAt.writeAt

theorem storeWord (h : s.Keeps d t) {a w : Word} (hw : both .wz ⊆ d := by simp [both]) : s.Keeps d (t.storeWord a w) :=
  h.operand.operand.writeWordAt.wz _ hw

theorem loadWordRp (h : s.Keeps d t) {a : Word} {p : Rp} (hp : both p.word ⊆ d := by simp [both])
    (hw : both .wz ⊆ d := by simp [both]) : s.Keeps d (t.loadWord a (·.setRp p ·)) :=
  (h.operand.operand.readWordAt.wz _ hw).setRp hp

theorem loadWordIdx (h : s.Keeps d t) {a : Word} {x : Index} (hx : both x.word ⊆ d := by simp [both, Index.word])
    (hw : both .wz ⊆ d := by simp [both]) : s.Keeps d (t.loadWord a (·.setIdx x ·)) :=
  (h.operand.operand.readWordAt.wz _ hw).setIdx hx

theorem loadSp (h : s.Keeps d t) {w : Word} (hsp : both .sp ⊆ d := by simp [both]) : s.Keeps d (t.loadSp w) :=
  h.internal.sp w hsp

theorem pushPair (h : s.Keeps d t) {w : Word} (hsp : both .sp ⊆ d := by simp [both]) : s.Keeps d (t.pushPair w) :=
  h.internal.push hsp

theorem jumpRel (h : s.Keeps d t) {e : Byte} (hw : both .wz ⊆ d := by simp [both]) : s.Keeps d (t.jumpRel e) :=
  h.internal.goto hw

theorem callTo (h : s.Keeps d t) {a : Word} (hsp : both .sp ⊆ d := by simp [both]) : s.Keeps d (t.callTo a) :=
  (h.internal.push hsp).pc a

theorem popIdx (h : s.Keeps d t) {x : Index} (hsp : both .sp ⊆ d := by simp [both])
    (hx : both x.word ⊆ d := by simp [both, Index.word]) : s.Keeps d (t.popIdx x) := (h.opFetch.pop hsp).setIdx hx

theorem stepIdx (h : s.Keeps d t) {x : Index} {k : Word} (hx : both x.word ⊆ d := by simp [both, Index.word]) :
    s.Keeps d (t.stepIdx x k) := h.opFetch.internal.setIdx hx

theorem addIdx (h : s.Keeps d t) {x : Index} {p : RpX} (hx : both x.word ⊆ d := by simp [both, Index.word])
    (hF : itemF ∈ d := by simp [both]) (hw : both .wz ⊆ d := by simp [both]) : s.Keeps d (t.addIdx x p) :=
  (h.opFetch.addPair hF hw).setIdx hx

theorem exchangeTopIdx (h : s.Keeps d t) {x : Index} (hx : both x.word ⊆ d := by simp [both, Index.word])
    (hw : both .wz ⊆ d := by simp [both]) : s.Keeps d (t.exchangeTopIdx x) := (h.opFetch.exchangeTop.setIdx hx).wz _ hw

theorem digitRotate (h : s.Keeps d t) {m a : Byte} (hA : itemA ∈ d := by simp) (hF : itemF ∈ d := by simp)
    (hw : both .wz ⊆ d := by simp [both]) : s.Keeps d (t.digitRotate m a) := (h.readAt.internal.writeAt.setAF hA hF).wz _ hw

theorem loadAir (h : s.Keeps d t) {v : Byte} (hA : itemA ∈ d := by simp) (hF : itemF ∈ d := by simp) :
    s.Keeps d (t.loadAir v) := h.internal.setAF hA hF

theorem repeatAt (h : s.Keeps d t) {a : Word} : s.Keeps d (t.repeatAt a) := h.internal.pc _

theorem ldBlock (h : s.Keeps d t) {k : Word} (hb : both .bc ⊆ d := by simp [both]) (hd : both .de ⊆ d := by simp [both])
    (hh : both .hl ⊆ d := by simp [both]) (hF : itemF ∈ d := by simp [both]) : s.Keeps d (t.ldBlock k) :=
  (h.opFetch.readAt.writeAt.internal.bcDeHl _ _ _ hb hd hh).setF hF

theorem cpBlockCore (h : s.Keeps d t) {k : Word} (hb : both .bc ⊆ d := by simp [both])
    (hh : both .hl ⊆ d := by simp [both]) (hF : itemF ∈ d := by simp [both]) : s.Keeps d (t.cpBlockCore k) :=
  (h.opFetch.readAt.internal.bcHl _ _ hb hh).setF hF

theorem ldBlockRepeat (h : s.Keeps d t) {k : Word} (hb : both .bc ⊆ d := by simp [both]) (hd : both .de ⊆ d := by simp [both])
    (hh : both .hl ⊆ d := by simp [both]) (hF : itemF ∈ d := by simp [both]) (hw : both .wz ⊆ d := by simp [both]) :
    s.Keeps d (t.ldBlockRepeat k) :=
  (h.ldBlock hb hd hh hF).ite ((h.ldBlock hb hd hh hF).repeatAt.wz _ hw)

theorem cpBlockRepeat (h : s.Keeps d t) {k : Word} (hb : both .bc ⊆ d := by simp [both]) (hh : both .hl ⊆ d := by simp [both])
    (hF : itemF ∈ d := by simp [both]) (hw : both .wz ⊆ d := by simp [both]) : s.Keeps d (t.cpBlockRepeat k) :=
  ((h.cpBlockCore hb hh hF).wz _ hw).ite ((h.cpBlockCore hb hh hF).repeatAt.wz _ hw)

/-- What INI, IND, OUTI, OUTD and their repeating forms write: F, B, HL and WZ (R530 to R537). -/
theorem inBlock (s : State) (k : Word) : s.Keeps (itemF :: ⟨.bc, .high⟩ :: both .hl ++ both .wz) (s.inBlock k) :=
  ((refl _ s).opFetch.internal.ioReadAt.writeAt.hlWz _ _).setB.setF

theorem outBlock (s : State) (k : Word) : s.Keeps (itemF :: ⟨.bc, .high⟩ :: both .hl ++ both .wz) (s.outBlock k) :=
  ((refl _ s).opFetch.internal.readAt.setB.ioWriteAt.hlWz _ _).setF

theorem inBlockRepeat (s : State) (k : Word) :
    s.Keeps (itemF :: ⟨.bc, .high⟩ :: both .hl ++ both .wz) (s.inBlockRepeat k) :=
  (inBlock s k).ite (inBlock s k).repeatAt

theorem outBlockRepeat (s : State) (k : Word) :
    s.Keeps (itemF :: ⟨.bc, .high⟩ :: both .hl ++ both .wz) (s.outBlockRepeat k) :=
  (outBlock s k).ite (outBlock s k).repeatAt

end State.Keeps
end Sys2Proof.Machine
end

section
/-! SUPPORT. The frame of every row, one line for each way of writing registers: its destinations are those of `Instr.dest`, and
its chain of operations is the one of its meaning. -/

namespace Sys2Proof.Machine

/-- The rows whose rules write a control bit (R332, R333, R335, R457 to R459). -/
def setsControl : Instr → Bool
  | .halt | .di | .ei | .reti | .retn _ | .im _ => true
  | _ => false

/-- A row's answer and destinations, both read off its definition, and the frame of the answer. -/
theorem exec_keeps_of {i : Instr} {s t : State} (d : List ByteItem) (hx : exec i s = .next t) (hd : i.dest = d)
    (h : s.Keeps d t) : ∃ t, exec i s = .next t ∧ s.Keeps i.dest t := ⟨t, hx, hd ▸ h⟩

open State.Keeps in
/-- Every row completes and keeps what its rule does not write, but for the control bits of `setsControl`. -/
theorem exec_keeps (i : Instr) (s : State) (hi : setsControl i = false) : ∃ t, exec i s = .next t ∧ s.Keeps i.dest t := by
  cases i with
  | halt | di | ei | reti | retn _ | im _ => exact nomatch hi
  | nop | cbPrefix | ddPrefix | edPrefix | fdPrefix | nopEd _ | noni _ | ddcbPrefix | rePrefixDd _ | edAfterDd | fdcbPrefix
  | rePrefixFd _ | edAfterFd => exact exec_keeps_of [] rfl rfl (refl _ s).opFetch
  | ddIgnored _ | fdIgnored _ => exact exec_keeps_of [] rfl rfl (refl _ s)
  -- loads and exchanges
  | ldRR r r' => exact exec_keeps_of [r.item] rfl rfl (refl _ s).opFetch.setReg
  | ldRN r n => exact exec_keeps_of [r.item] rfl rfl (refl _ s).opFetch.operand.setReg
  | ldRIndHl r => exact exec_keeps_of [r.item] rfl rfl (refl _ s).opFetch.readAt.setReg
  | ldIndHlR _ => exact exec_keeps_of [] rfl rfl (refl _ s).opFetch.writeAt
  | ldIndHlN _ => exact exec_keeps_of [] rfl rfl (refl _ s).opFetch.operand.writeAt
  | ldRpNn p _ => exact exec_keeps_of (both p.word) rfl rfl (refl _ s).opFetch.operand.operand.setRp
  | ldIndRpA _ => exact exec_keeps_of (both .wz) rfl rfl ((refl _ s).opFetch.writeAt.wz _)
  | ldIndNnA _ => exact exec_keeps_of (both .wz) rfl rfl ((refl _ s).opFetch.operand.operand.writeAt.wz _)
  | ldAIndRp _ => exact exec_keeps_of (itemA :: both .wz) rfl rfl ((refl _ s).opFetch.readAt.setA.wz _)
  | ldAIndNn _ => exact exec_keeps_of (itemA :: both .wz) rfl rfl ((refl _ s).opFetch.operand.operand.readAt.setA.wz _)
  | ldIndNnHl _ | ldIndNnRp _ _ | ldIndNnIx _ | ldIndNnIy _ => exact exec_keeps_of (both .wz) rfl rfl (refl _ s).opFetch.storeWord
  | ldHlIndNn _ => exact exec_keeps_of (both Rp.hl.word ++ both .wz) rfl rfl (refl _ s).opFetch.loadWordRp
  | ldRpIndNn p _ => exact exec_keeps_of (both p.word ++ both .wz) rfl rfl (refl _ s).opFetch.loadWordRp
  | ldIxIndNn _ => exact exec_keeps_of (both Index.ix.word ++ both .wz) rfl rfl (refl _ s).opFetch.loadWordIdx
  | ldIyIndNn _ => exact exec_keeps_of (both Index.iy.word ++ both .wz) rfl rfl (refl _ s).opFetch.loadWordIdx
  | ldSpHl | ldSpIx | ldSpIy => exact exec_keeps_of (both .sp) rfl rfl (refl _ s).opFetch.loadSp
  | pushRp2 _ | pushIx | pushIy => exact exec_keeps_of (both .sp) rfl rfl (refl _ s).opFetch.pushPair
  | popRp2 p => exact exec_keeps_of (both p.word ++ both .sp) rfl rfl (refl _ s).opFetch.pop.setRp2
  | popIx => exact exec_keeps_of (both .ix ++ both .sp) rfl rfl (refl _ s).popIdx
  | popIy => exact exec_keeps_of (both .iy ++ both .sp) rfl rfl (refl _ s).popIdx
  | exAfAf => exact exec_keeps_of (both .af ++ both .afAlt) rfl rfl (((refl _ s).opFetch.putWord .af s.afAlt).putWord .afAlt s.af)
  | exx =>
    exact exec_keeps_of (both .bc ++ both .de ++ both .hl ++ both .bcAlt ++ both .deAlt ++ both .hlAlt) rfl rfl
      (((((refl _ s).opFetch.bcDeHl s.bcAlt s.deAlt s.hlAlt).putWord .bcAlt s.bc).putWord .deAlt s.de).putWord .hlAlt s.hl)
  | exDeHl => exact exec_keeps_of (both .de ++ both .hl) rfl rfl ((refl _ s).opFetch.deHl _ _)
  | exIndSpHl => exact exec_keeps_of (both .hl ++ both .wz) rfl rfl ((refl _ s).opFetch.exchangeTop.hlWz _ _)
  | exIndSpIx => exact exec_keeps_of (both .ix ++ both .wz) rfl rfl (refl _ s).exchangeTopIdx
  | exIndSpIy => exact exec_keeps_of (both .iy ++ both .wz) rfl rfl (refl _ s).exchangeTopIdx
  | ldIA => exact exec_keeps_of [⟨.ir, .high⟩] rfl rfl ((refl _ s).opFetch.internal.putByte ⟨.ir, .high⟩ _)
  | ldRA => exact exec_keeps_of [⟨.ir, .low⟩] rfl rfl ((refl _ s).opFetch.internal.putByte ⟨.ir, .low⟩ _)
  | ldAI | ldAR => exact exec_keeps_of [itemA, itemF] rfl rfl (refl _ s).opFetch.loadAir
  | ldIxNn _ => exact exec_keeps_of (both .ix) rfl rfl ((refl _ s).opFetch.operand.operand.putWord .ix _)
  | ldIyNn _ => exact exec_keeps_of (both .iy) rfl rfl ((refl _ s).opFetch.operand.operand.putWord .iy _)
  | ldIxHalfN h _ => exact exec_keeps_of [⟨Index.ix.word, h⟩] rfl rfl (refl _ s).opFetch.operand.setHalf
  | ldIyHalfN h _ => exact exec_keeps_of [⟨Index.iy.word, h⟩] rfl rfl (refl _ s).opFetch.operand.setHalf
  | ldIxHalfR h _ => exact exec_keeps_of [⟨Index.ix.word, h⟩] rfl rfl (refl _ s).opFetch.setHalf
  | ldIyHalfR h _ => exact exec_keeps_of [⟨Index.iy.word, h⟩] rfl rfl (refl _ s).opFetch.setHalf
  | ldRIxHalf r _ | ldRIyHalf r _ => exact exec_keeps_of [(regNoHL r).item] rfl rfl (refl _ s).opFetch.setReg
  | ldRIndIxD r _ | ldRIndIyD r _ => exact exec_keeps_of (r.item :: both .wz) rfl rfl (refl _ s).indexed.readAt.setReg
  | ldIndIxDR _ _ | ldIndIyDR _ _ => exact exec_keeps_of (both .wz) rfl rfl (refl _ s).indexed.writeAt
  | ldIndIxDN _ _ | ldIndIyDN _ _ =>
    exact exec_keeps_of (both .wz) rfl rfl ((refl _ s).opFetch.operand.operand.internal.wz _).writeAt
  -- arithmetic and logic
  | addAR _ | adcAR _ | subR _ | sbcAR _ | andR _ | xorR _ | orR _ =>
    exact exec_keeps_of [itemA, itemF] rfl rfl (refl _ s).opFetch.alu
  | addAIndHl | adcAIndHl | subIndHl | sbcAIndHl | andIndHl | xorIndHl | orIndHl =>
    exact exec_keeps_of [itemA, itemF] rfl rfl (refl _ s).opFetch.readAt.alu
  | addAN _ | adcAN _ | subN _ | sbcAN _ | andN _ | xorN _ | orN _ =>
    exact exec_keeps_of [itemA, itemF] rfl rfl (refl _ s).opFetch.operand.alu
  | cpR _ => exact exec_keeps_of [itemF] rfl rfl ((refl _ s).opFetch.alu (o := .cp))
  | cpIndHl => exact exec_keeps_of [itemF] rfl rfl ((refl _ s).opFetch.readAt.alu (o := .cp))
  | cpN _ => exact exec_keeps_of [itemF] rfl rfl ((refl _ s).opFetch.operand.alu (o := .cp))
  | aluIxHalf o _ | aluIyHalf o _ => exact exec_keeps_of o.dest rfl rfl ((refl _ s).opFetch.alu (o := o))
  | aluIndIxD o _ | aluIndIyD o _ => exact exec_keeps_of (o.dest ++ both .wz) rfl rfl ((refl _ s).indexed.readAt.alu (o := o))
  | neg _ | daa | cpl => exact exec_keeps_of [itemA, itemF] rfl rfl (refl _ s).opFetch.setAF
  | rlca | rrca | rla | rra => exact exec_keeps_of [itemA, itemF] rfl rfl (refl _ s).opFetch.setAF
  | scf | ccf => exact exec_keeps_of [itemF] rfl rfl (refl _ s).opFetch.setF
  | incR r | decR r => exact exec_keeps_of [itemF, r.item] rfl rfl (refl _ s).opFetch.setF.setReg
  | incIxHalf h | decIxHalf h => exact exec_keeps_of [itemF, ⟨Index.ix.word, h⟩] rfl rfl (refl _ s).opFetch.setF.setHalf
  | incIyHalf h | decIyHalf h => exact exec_keeps_of [itemF, ⟨Index.iy.word, h⟩] rfl rfl (refl _ s).opFetch.setF.setHalf
  | incIndHl => exact exec_keeps_of [itemF] rfl rfl (refl _ s).opFetch.incMem
  | decIndHl => exact exec_keeps_of [itemF] rfl rfl (refl _ s).opFetch.decMem
  | incIndIxD _ | incIndIyD _ => exact exec_keeps_of (itemF :: both .wz) rfl rfl (refl _ s).indexed.incMem
  | decIndIxD _ | decIndIyD _ => exact exec_keeps_of (itemF :: both .wz) rfl rfl (refl _ s).indexed.decMem
  | incRp p | decRp p => exact exec_keeps_of (both p.word) rfl rfl (refl _ s).opFetch.internal.setRp
  | incIx | decIx => exact exec_keeps_of (both .ix) rfl rfl (refl _ s).stepIdx
  | incIy | decIy => exact exec_keeps_of (both .iy) rfl rfl (refl _ s).stepIdx
  | addHlRp _ => exact exec_keeps_of (itemF :: both .hl ++ both .wz) rfl rfl ((refl _ s).opFetch.addPair.hl _)
  | adcHlRp _ | sbcHlRp _ =>
    exact exec_keeps_of (itemF :: both .hl ++ both .wz) rfl rfl ((refl _ s).opFetch.internal.setF.hlWz _ _)
  | addIxRp _ => exact exec_keeps_of (itemF :: both .ix ++ both .wz) rfl rfl (refl _ s).addIdx
  | addIyRp _ => exact exec_keeps_of (itemF :: both .iy ++ both .wz) rfl rfl (refl _ s).addIdx
  | rrd | rld => exact exec_keeps_of (itemA :: itemF :: both .wz) rfl rfl (refl _ s).opFetch.digitRotate
  -- shifts, rotates and bits
  | rlcR r | rrcR r | rlR r | rrR r | slaR r | sraR r | sllR r | srlR r =>
    exact exec_keeps_of [itemF, r.item] rfl rfl (refl _ s).opFetch.setF.setReg
  | rlcIndHl | rrcIndHl | rlIndHl | rrIndHl | slaIndHl | sraIndHl | sllIndHl | srlIndHl =>
    exact exec_keeps_of [itemF] rfl rfl (refl _ s).opFetch.rotMem
  | bitBR _ _ => exact exec_keeps_of [itemF] rfl rfl (refl _ s).opFetch.setF
  | bitBIndHl _ => exact exec_keeps_of [itemF] rfl rfl (refl _ s).opFetch.readAt.internal.setF
  | resBR _ r | setBR _ r => exact exec_keeps_of [r.item] rfl rfl (refl _ s).opFetch.setReg
  | resBIndHl _ | setBIndHl _ => exact exec_keeps_of [] rfl rfl (refl _ s).opFetch.modifyAt
  | rlcIx _ | rrcIx _ | rlIx _ | rrIx _ | slaIx _ | sraIx _ | sllIx _ | srlIx _ | rlcIy _ | rrcIy _ | rlIy _ | rrIy _ | slaIy _
  | sraIy _ | sllIy _ | srlIy _ => exact exec_keeps_of (itemF :: both .wz) rfl rfl (refl _ s).indexedCb.rotMem
  | rlcIxR _ r | rrcIxR _ r | rlIxR _ r | rrIxR _ r | slaIxR _ r | sraIxR _ r | sllIxR _ r | srlIxR _ r | rlcIyR _ r
  | rrcIyR _ r | rlIyR _ r | rrIyR _ r | slaIyR _ r | sraIyR _ r | sllIyR _ r | srlIyR _ r =>
    exact exec_keeps_of (itemF :: r.item :: both .wz) rfl rfl (refl _ s).indexedCb.rotMem.setReg
  | bitIx _ _ _ | bitIy _ _ _ => exact exec_keeps_of (itemF :: both .wz) rfl rfl (refl _ s).indexedCb.readAt.internal.setF
  | resIx _ _ | setIx _ _ | resIy _ _ | setIy _ _ => exact exec_keeps_of (both .wz) rfl rfl (refl _ s).indexedCb.modifyAt
  | resIxR _ _ r | setIxR _ _ r | resIyR _ _ r | setIyR _ _ r =>
    exact exec_keeps_of (r.item :: both .wz) rfl rfl (refl _ s).indexedCb.modifyAt.setReg
  -- control
  | jpNn _ => exact exec_keeps_of (both .wz) rfl rfl (refl _ s).opFetch.operand.operand.goto
  | jpCcNn _ _ => exact exec_keeps_of (both .wz) rfl rfl ((refl _ s).opFetch.operand.operand.wzPc _ _)
  | jpIndHl | jpIndIx | jpIndIy => exact exec_keeps_of [] rfl rfl ((refl _ s).opFetch.pc _)
  | jr _ => exact exec_keeps_of (both .wz) rfl rfl (refl _ s).opFetch.operand.jumpRel
  | jrCc _ _ =>
    have h := (refl (both .wz) s).opFetch.operand
    exact exec_keeps_of _ rfl rfl (h.jumpRel.ite h)
  | djnz _ =>
    have h (v : Byte) :=
      ((refl (⟨.bc, .high⟩ :: both .wz) s).opFetch.internal (a := s.opFetch.ir) (n := 1)).operand.setB (v := v)
    exact exec_keeps_of _ rfl rfl ((h _).ite (h _).jumpRel)
  | callNn nn => exact exec_keeps_of (both .sp ++ both .wz) rfl rfl ((refl _ s).opFetch.operand.operand.wz nn).callTo
  | callCcNn _ nn =>
    have h := (refl (both .sp ++ both .wz) s).opFetch.operand.operand.wz nn
    exact exec_keeps_of _ rfl rfl (h.callTo.ite h)
  | rst _ => exact exec_keeps_of (both .sp ++ both .wz) rfl rfl (refl _ s).opFetch.internal.push.goto
  | ret => exact exec_keeps_of (both .sp ++ both .wz) rfl rfl (refl _ s).opFetch.popPc
  | retCc _ =>
    have h := (refl (both .sp ++ both .wz) s).opFetch.internal (a := s.opFetch.ir) (n := 1)
    exact exec_keeps_of _ rfl rfl (h.popPc.ite h)
  | outNA _ => exact exec_keeps_of (both .wz) rfl rfl ((refl _ s).opFetch.operand.ioWriteAt.wz _)
  | inAN _ => exact exec_keeps_of (itemA :: both .wz) rfl rfl ((refl _ s).opFetch.operand.ioReadAt.setA.wz _)
  | inRC r => exact exec_keeps_of (itemF :: r.item :: both .wz) rfl rfl ((refl _ s).opFetch.ioReadAt.wz _).setF.setReg
  | inC => exact exec_keeps_of (itemF :: both .wz) rfl rfl ((refl _ s).opFetch.ioReadAt.wz _).setF
  | outCR _ | outC0 => exact exec_keeps_of (both .wz) rfl rfl ((refl _ s).opFetch.ioWriteAt.wz _)
  -- block instructions
  | ldi | ldd => exact exec_keeps_of (itemF :: both .bc ++ both .de ++ both .hl) rfl rfl (refl _ s).ldBlock
  | cpi | cpd => exact exec_keeps_of (itemF :: both .bc ++ both .hl ++ both .wz) rfl rfl ((refl _ s).cpBlockCore.wz _)
  | ini | ind => exact exec_keeps_of _ rfl rfl (inBlock s _)
  | outi | outd => exact exec_keeps_of _ rfl rfl (outBlock s _)
  | ldir | lddr => exact exec_keeps_of (itemF :: both .bc ++ both .de ++ both .hl ++ both .wz) rfl rfl (refl _ s).ldBlockRepeat
  | cpir | cpdr => exact exec_keeps_of (itemF :: both .bc ++ both .hl ++ both .wz) rfl rfl (refl _ s).cpBlockRepeat
  | inir | indr => exact exec_keeps_of _ rfl rfl (inBlockRepeat s _)
  | otir | otdr => exact exec_keeps_of _ rfl rfl (outBlockRepeat s _)

end Sys2Proof.Machine
end

section
/-! SUPPORT. What every row keeps (spec/10_state.md R71 to R77), from its frame. -/

namespace Sys2Proof.Machine

/-- Settles O14: a row outside `setsControl` keeps the whole control state, and each of the six rows in it writes only its own
bits. -/
theorem everyRowCompletesAndKeepsControlBits : Obligations.EveryRowCompletesAndKeepsControlBits := by
  intro i s
  cases hi : setsControl i with
  | false =>
    obtain ⟨t, ht, hk⟩ := exec_keeps i s hi
    have keeps {α : Type} (g : Control → α) : g t.control = g s.control := congrArg g hk.control
    exact ⟨t, ht, keeps (·.nmiPend), keeps (·.irqPend), keeps (·.agent), .inl (keeps (·.iff1)), .inl (keeps (·.iff2)),
      .inl (keeps (·.im)), .inl (keeps (·.halted)), .inl (keeps (·.eiBlock))⟩
  | true =>
    cases i with
    | halt => exact ⟨_, rfl, rfl, rfl, rfl, .inl rfl, .inl rfl, .inl rfl, .inr rfl, .inl rfl⟩
    | di => exact ⟨_, rfl, rfl, rfl, rfl, .inr (.inl rfl), .inr (.inl rfl), .inl rfl, .inl rfl, .inl rfl⟩
    | ei => exact ⟨_, rfl, rfl, rfl, rfl, .inr (.inr (.inl rfl)), .inr (.inr rfl), .inl rfl, .inl rfl, .inr rfl⟩
    | im y => exact ⟨_, rfl, rfl, rfl, rfl, .inl rfl, .inl rfl, .inr ⟨y, rfl⟩, .inl rfl, .inl rfl⟩
    | reti => exact ⟨_, rfl, by simp [State.returnFromInterrupt_eq]⟩
    | retn _ => exact ⟨_, rfl, by simp [State.returnFromInterrupt_eq]⟩
    | _ => exact nomatch hi

/-- The frame of the rows that set control bits: their own registers are those of the fetch, or of the return. -/
theorem exec_regsKept_of_setsControl (i : Instr) (s : State) (hi : setsControl i = true) :
    ∃ t, exec i s = .next t ∧ s.RegsKept i.dest t := by
  have hfetch : s.RegsKept [] s.opFetch := (State.Keeps.refl [] s).opFetch.regs
  have hpop : s.RegsKept (both .sp ++ both .wz) s.opFetch.popPc := (State.Keeps.refl _ s).opFetch.popPc.regs
  cases i with
  | halt => exact ⟨_, rfl, ((State.Keeps.refl [] s).opFetch.pc _).regs⟩
  | di | ei | im _ => exact ⟨_, rfl, hfetch⟩
  | reti | retn _ => exact ⟨_, rfl, hpop⟩
  | _ => exact nomatch hi

/-- Settles O15: the frame of the row, whether or not it sets control bits. -/
theorem registersOutsideDestKept : Obligations.RegistersOutsideDestKept := by
  intro i s t k ht
  obtain ⟨u, hu, hk⟩ : ∃ u, exec i s = .next u ∧ s.RegsKept i.dest u := by
    cases hi : setsControl i with
    | false =>
      obtain ⟨u, hu, hk⟩ := exec_keeps i s hi
      exact ⟨u, hu, hk.regs⟩
    | true => exact exec_regsKept_of_setsControl i s hi
  cases hu.symm.trans ht
  exact hk k

end Sys2Proof.Machine
end

section
/-! SUPPORT. The Flags lines (files 40 to 47): the bits of F that each flag computation keeps. -/

namespace Sys2Proof

/-! ### Flag computations under the mask of what they keep -/

@[simp] theorem when_zero (b : Bool) : when b 0#8 = 0#8 := by cases b <;> rfl

theorem when_and (b : Bool) (u v : Byte) : when b u &&& v = when b (u &&& v) := by cases b <;> simp [when]

/-- A half-carry table has no bit but H. -/
theorem hcAdd_and {k : Nat} {m : Byte} (h : flagH &&& m = 0) : hcAdd k &&& m = 0 := by
  unfold hcAdd
  split <;> simp [h]

theorem hcSub_and {k : Nat} {m : Byte} (h : flagH &&& m = 0) : hcSub k &&& m = 0 := by
  unfold hcSub
  split <;> simp [h]

theorem incFlags_kept (v f : Byte) : incFlags v f &&& ~~~allButC = f &&& ~~~allButC := by
  simp [incFlags, sz53, allButC, BitVec.and_or_distrib_right, BitVec.and_assoc, when_and, flagC, flagPV, flagH, flagZ]

theorem decFlags_kept (v f : Byte) : decFlags v f &&& ~~~allButC = f &&& ~~~allButC := by
  simp [decFlags, sz53, allButC, BitVec.and_or_distrib_right, BitVec.and_assoc, when_and, flagC, flagN, flagPV, flagH, flagZ]

theorem add16_kept (a b : Word) (f : Byte) : (add16 a b f).2 &&& ~~~not3Flags = f &&& ~~~not3Flags := by
  simp [add16, not3Flags, hcAdd_and (m := 0xC4#8) rfl, BitVec.and_or_distrib_right, BitVec.and_assoc, when_and, flagC, flag53]

theorem rotAFlags_kept (a f : Byte) (c : Bool) : rotAFlags a f c &&& ~~~not3Flags = f &&& ~~~not3Flags := by
  simp [rotAFlags, not3Flags, BitVec.and_or_distrib_right, BitVec.and_assoc, when_and, flagC, flag53]

theorem scfFlags_kept (a f : Byte) : scfFlags a f &&& ~~~not3Flags = f &&& ~~~not3Flags := by
  simp [scfFlags, not3Flags, BitVec.and_or_distrib_right, BitVec.and_assoc, flagC, flag53]

theorem ccfFlags_kept (a f : Byte) : ccfFlags a f &&& ~~~not3Flags = f &&& ~~~not3Flags := by
  simp [ccfFlags, not3Flags, BitVec.and_or_distrib_right, BitVec.and_assoc, when_and, flagC, flagH, flag53]

theorem daa_kept (a f : Byte) : (daa a f).2 &&& ~~~0xFD = f &&& ~~~0xFD := by
  simp [daa, sz53p, sz53, par, BitVec.and_or_distrib_right, BitVec.and_assoc, when_and, flagC, flagN, flagPV, flagH, flagZ]

theorem cplFlags_kept (a f : Byte) : cplFlags a f &&& ~~~0x3A = f &&& ~~~0x3A := by
  simp [cplFlags, BitVec.and_or_distrib_right, BitVec.and_assoc, flagN, flagH, flag53]

theorem bitFlags_kept (b : BitVec 3) (v x f : Byte) : bitFlags b v x f &&& ~~~allButC = f &&& ~~~allButC := by
  simp [bitFlags, allButC, BitVec.and_or_distrib_right, BitVec.and_assoc, when_and, flagC, flagH, flagS, flag53]

theorem inFlags_kept (v f : Byte) : inFlags v f &&& ~~~allButC = f &&& ~~~allButC := by
  simp [inFlags, sz53p, sz53, par, allButC, BitVec.and_or_distrib_right, BitVec.and_assoc, when_and, flagC, flagPV, flagZ]

theorem ldAirFlags_kept (a f : Byte) (i : Bool) : ldAirFlags a f i &&& ~~~allButC = f &&& ~~~allButC := by
  simp [ldAirFlags, sz53, allButC, BitVec.and_or_distrib_right, BitVec.and_assoc, when_and, flagC, flagPV, flagZ]

theorem ldBlockFlags_kept (n f : Byte) (w : Word) : ldBlockFlags n f w &&& ~~~0x3E = f &&& ~~~0x3E := by
  simp [ldBlockFlags, xyBlock, BitVec.and_or_distrib_right, BitVec.and_assoc, when_and, flagPV, flag3, flag5]

theorem cpBlockFlags_kept (a v f : Byte) (w : Word) : cpBlockFlags a v f w &&& ~~~allButC = f &&& ~~~allButC := by
  simp [cpBlockFlags, xyBlock, sz53, allButC, hcSub_and (m := 0x01#8) rfl, BitVec.and_or_distrib_right,
    BitVec.and_assoc, when_and, flagC, flagN, flagPV, flag3, flag5, flagZ]

end Sys2Proof
end

section
/-! SUPPORT. What every row does to the flags its rule does not name. -/

namespace Sys2Proof.Machine

/-- From `s` to `t` no flag outside the mask `m` changes. -/
def State.FlagsKept (m : Byte) (s t : State) : Prop := t.f &&& ~~~m = s.f &&& ~~~m

@[simp] theorem itemF_ne_item (r : Reg8) : itemF ≠ r.item := by cases r <;> decide

/-- F is a register half like the others. -/
theorem State.RegsKept.f {d : List ByteItem} {s t : State} (h : s.RegsKept d t) (hF : itemF ∉ d) : t.f = s.f :=
  h itemF hF (by decide) (by decide)

namespace State.FlagsKept

variable {d : List ByteItem} {m x y : Byte} {s t u : State}

/-- What comes before F is written may write anything else. -/
theorem after (hk : s.Keeps d t) (h : t.FlagsKept m u) (hF : itemF ∉ d := by simp [both, itemF]) : s.FlagsKept m u := by
  rw [State.FlagsKept, ← hk.regs.f hF]
  exact h

/-- And so may what comes after. -/
theorem before (h : s.FlagsKept m t) (hk : t.Keeps d u) (hF : itemF ∉ d := by simp [both, itemF]) : s.FlagsKept m u := by
  rw [State.FlagsKept, hk.regs.f hF]
  exact h

theorem setF (hx : x &&& ~~~m = s.f &&& ~~~m) : s.FlagsKept m (t.setF x) := by
  rw [State.FlagsKept, State.f, State.setF_af, lo8_withLo, hx]

theorem setAF (hx : x &&& ~~~m = s.f &&& ~~~m) : s.FlagsKept m (t.setAF (y, x)) := by
  rw [State.FlagsKept, State.f, State.setAF_af, lo8_cat, hx]

open State.Keeps (refl)

theorem fetch (h : s.opFetch.FlagsKept m u) : s.FlagsKept m u := after (refl [] s).opFetch h

theorem setReg (h : s.FlagsKept m t) {r : Reg8} {v : Byte} : s.FlagsKept m (t.setReg r v) :=
  h.before (refl [r.item] t).setReg (by simp)

theorem setHalf (h : s.FlagsKept m t) {x : Index} {i : Half} {v : Byte} : s.FlagsKept m (t.setHalf x i v) :=
  h.before (refl [⟨x.word, i⟩] t).setHalf (by cases x <;> simp [itemF, Index.word])

theorem incMem (s : State) (a : Word) : s.FlagsKept allButC (s.incMem a) := setF (incFlags_kept _ s.f)
theorem decMem (s : State) (a : Word) : s.FlagsKept allButC (s.decMem a) := setF (decFlags_kept _ s.f)

theorem addPair (s : State) (v w : Word) : s.FlagsKept not3Flags (s.addPair v w) :=
  after (refl [] s).internal ((setF (add16_kept _ _ _)).before ((refl (both .wz) _).wz _))

theorem loadAir (s : State) (v : Byte) : s.FlagsKept allButC (s.loadAir v) :=
  after (refl [] s).internal (setAF (ldAirFlags_kept _ _ _))

theorem digitRotate (s : State) (v w : Byte) : s.FlagsKept allButC (s.digitRotate v w) :=
  after (refl [] s).readAt.internal.writeAt ((setAF (inFlags_kept _ _)).before ((refl (both .wz) _).wz _))

theorem rotA (s : State) (o : RotOp) : s.FlagsKept not3Flags (s.rotA o) :=
  after (refl [] s).opFetch (setAF (rotAFlags_kept _ _ _))

theorem ldBlock (s : State) (k : Word) : s.FlagsKept 0x3E (s.ldBlock k) :=
  after ((refl (both .bc ++ both .de ++ both .hl) s).opFetch.readAt.writeAt.internal.bcDeHl _ _ _)
    (setF (ldBlockFlags_kept _ _ _))

theorem cpBlockCore (s : State) (k : Word) : s.FlagsKept allButC (s.cpBlockCore k) :=
  after ((refl (both .bc ++ both .hl) s).opFetch.readAt.internal.bcHl _ _) (setF (cpBlockFlags_kept _ _ _ _))

theorem ite (h : s.FlagsKept m t) (h' : s.FlagsKept m u) {c : Prop} [Decidable c] : s.FlagsKept m (if c then t else u) := by
  split
  · exact h
  · exact h'

theorem ldBlockRepeat (s : State) (k : Word) : s.FlagsKept 0x3E (s.ldBlockRepeat k) :=
  (ldBlock s k).ite ((ldBlock s k).before ((refl (both .wz) _).repeatAt.wz _))

theorem cpBlock (s : State) (k : Word) : s.FlagsKept allButC (s.cpBlock k) :=
  (cpBlockCore s k).before ((refl (both .wz) _).wz _)

theorem cpBlockRepeat (s : State) (k : Word) : s.FlagsKept allButC (s.cpBlockRepeat k) :=
  (cpBlock s k).ite ((cpBlockCore s k).before ((refl (both .wz) _).repeatAt.wz _))

end State.FlagsKept

/-- A row whose Flags line names no flag, or all of them. -/
theorem flagsKept_of_all_or_none {i : Instr} {s t : State} (ht : exec i s = .next t)
    (hm : i.flags = if itemF ∈ i.dest then allFlags else 0) : s.FlagsKept i.flags t := by
  rw [hm]
  by_cases hF : itemF ∈ i.dest
  · simp [hF, State.FlagsKept, allFlags]
  · rw [State.FlagsKept, State.RegsKept.f (fun k => registersOutsideDestKept i s t k ht) hF]

/-- The flags of the state a row answers, by name. -/
theorem flagsKept_of {i : Instr} {s t u : State} {m : Byte} (ht : exec i s = .next t) (hx : exec i s = .next u)
    (hm : i.flags = m) (h : s.FlagsKept m u) : s.FlagsKept i.flags t := by
  cases hx.symm.trans ht
  exact hm ▸ h

open State.Keeps (refl) in
open State.FlagsKept in
/-- Settles O16: a row whose Flags line is partial computes F by a function that keeps the rest (`incFlags_kept` and its like);
every other row names all flags or none. -/
theorem flagsOutsideMaskKept : Obligations.FlagsOutsideMaskKept := by
  intro i s t ht
  cases i with
  | exAfAf => exact flagsKept_of_all_or_none ht rfl
  | popRp2 p => cases p <;> exact flagsKept_of_all_or_none ht rfl
  | addHlRp _ => exact flagsKept_of ht rfl rfl (fetch ((addPair _ _ _).before ((refl (both .hl) _).hl _)))
  | addIxRp _ => exact flagsKept_of ht rfl rfl (fetch ((addPair _ _ _).before ((refl (both .ix) _).putWord .ix _)))
  | addIyRp _ => exact flagsKept_of ht rfl rfl (fetch ((addPair _ _ _).before ((refl (both .iy) _).putWord .iy _)))
  | incR _ => exact flagsKept_of ht rfl rfl (fetch (setF (incFlags_kept _ _)).setReg)
  | decR _ => exact flagsKept_of ht rfl rfl (fetch (setF (decFlags_kept _ _)).setReg)
  | incIxHalf _ | incIyHalf _ => exact flagsKept_of ht rfl rfl (fetch (setF (incFlags_kept _ _)).setHalf)
  | decIxHalf _ | decIyHalf _ => exact flagsKept_of ht rfl rfl (fetch (setF (decFlags_kept _ _)).setHalf)
  | incIndHl => exact flagsKept_of ht rfl rfl (fetch (incMem _ _))
  | decIndHl => exact flagsKept_of ht rfl rfl (fetch (decMem _ _))
  | incIndIxD _ | incIndIyD _ => exact flagsKept_of ht rfl rfl (after (refl (both .wz) s).indexed (incMem _ _))
  | decIndIxD _ | decIndIyD _ => exact flagsKept_of ht rfl rfl (after (refl (both .wz) s).indexed (decMem _ _))
  | rlca | rrca | rla | rra => exact flagsKept_of ht rfl rfl (rotA s _)
  | scf => exact flagsKept_of ht rfl rfl (setF (scfFlags_kept _ _))
  | ccf => exact flagsKept_of ht rfl rfl (setF (ccfFlags_kept _ _))
  | daa => exact flagsKept_of ht rfl rfl (setAF (daa_kept s.a s.f))
  | cpl => exact flagsKept_of ht rfl rfl (setAF (cplFlags_kept _ _))
  | bitBR _ _ | bitBIndHl _ => exact flagsKept_of ht rfl rfl (fetch (setF (bitFlags_kept _ _ _ _)))
  | bitIx _ _ _ | bitIy _ _ _ =>
    exact flagsKept_of ht rfl rfl (after (refl (both .wz) s).indexedCb (setF (bitFlags_kept _ _ _ _)))
  | inRC _ =>
    exact flagsKept_of ht rfl rfl (after ((refl (both .wz) s).opFetch.ioReadAt.wz _) (setF (inFlags_kept _ _)).setReg)
  | inC => exact flagsKept_of ht rfl rfl (after ((refl (both .wz) s).opFetch.ioReadAt.wz _) (setF (inFlags_kept _ _)))
  | ldAI | ldAR => exact flagsKept_of ht rfl rfl (fetch (loadAir _ _))
  | rrd | rld => exact flagsKept_of ht rfl rfl (fetch (digitRotate _ _ _))
  | ldi | ldd => exact flagsKept_of ht rfl rfl (ldBlock s _)
  | ldir | lddr => exact flagsKept_of ht rfl rfl (ldBlockRepeat s _)
  | cpi | cpd => exact flagsKept_of ht rfl rfl (cpBlock s _)
  | cpir | cpdr => exact flagsKept_of ht rfl rfl (cpBlockRepeat s _)
  | _ => exact flagsKept_of_all_or_none ht rfl

end Sys2Proof.Machine
end

section
/-! SUPPORT. Reads after writes on each bus (spec/20_memory.md R103, R108, R114, R116). -/

namespace Sys2Proof.Machine

/-! ### A byte -/

theorem Memory.read_write (m : Memory) (a b : Nat) (v : Byte) : (m.write a v).read b = if b = a then v else m.read b := by
  unfold Memory.write
  split
  case isTrue h => rw [Memory.read_erase, h]
  case isFalse =>
    rw [Memory.read_insert _ _ _ _ fun _ hc => (Memory.mem_erase hc).2, Memory.read_erase]
    split <;> rfl

/-- The same for the address of a word. -/
theorem Memory.read_write_word (m : Memory) (a b : Word) (v : Byte) :
    (m.write a.toNat v).read b.toNat = if b = a then v else m.read b.toNat := by
  simp only [Memory.read_write, toNat_eq_iff]

/-- Settles O6: in plain memory by `Memory.read_write`, and a draw is the definition of the other bus and of every port. -/
theorem memoryReadAfterWrite : Obligations.MemoryReadAfterWrite := by
  refine ⟨Memory.read_write, fun s k a b v h => ⟨s.reply_plain k b h, ?_⟩,
    fun s k a h => s.reply_any k a h, fun _ _ _ => rfl⟩
  have h' : (s.writeAt a v).agent = .plainMemory := h
  rw [State.reply_plain k b h', State.reply_plain k b h, State.writeAt_mem, Memory.read_write_word]

/-! ### A word -/

theorem add_one_ne_self (a : Word) : a + 1 ≠ a := by bv_omega

/-- Settles O7: the two bytes of a word stand at different addresses, so the second write leaves the first. -/
theorem wordsAreLittleEndian : Obligations.WordsAreLittleEndian := by
  intro s a w u
  have hread (b : Word) : u.mem.read b.toNat = if b = a + 1 then hi8 w else if b = a then lo8 w else s.mem.read b.toNat := by
    simp only [u, State.writeWordAt_mem, Memory.read_write_word]
  have hlo : u.mem.read a.toNat = lo8 w := by rw [hread, if_neg (add_one_ne_self a).symm, if_pos rfl]
  have hhi : u.mem.read (a + 1).toNat = hi8 w := by rw [hread, if_pos rfl]
  refine ⟨hlo, hhi, fun b hb hb' => ?_, fun h => ?_, rfl⟩
  · rw [hread, if_neg hb', if_neg hb]
  · have hu : u.agent = .plainMemory := (State.writeWordAt_agent s a w).trans h
    rw [State.wordAt, u.reply_plain _ _ hu, u.reply_plain _ _ hu, hlo, hhi, cat_hi8_lo8]

end Sys2Proof.Machine
end

section
/-! SUPPORT. What a chain of shared operations does to the bus, to memory and to R: the transactions it adds fill the time, their
base ticks are counted, and so are its M1 cycles; the bytes it stores are listed. One rule per shared operation, each from the rules
of the operations it is made of. What a meaning writes to registers in between does not matter (`State.Runs.update`). -/

namespace Sys2Proof.Machine

/-! ### Filling time -/

theorem baseTicks_append (es fs : List BusEvent) : baseTicks (es ++ fs) = baseTicks es + baseTicks fs := by
  simp [baseTicks]

theorem Fills.append {fs es : List BusEvent} {t0 t1 t2 : Nat} (h : Fills t0 fs t1) (h' : Fills t1 es t2) :
    Fills t0 (es ++ fs) t2 := by
  induction es generalizing t2 with
  | nil => exact (show t2 = t1 from h') ▸ h
  | cons e es ih => exact ⟨ih h'.1, h'.2⟩

/-! ### The two relations -/

/-- From `s` to `t` the transactions on the trace fill the time, with `n` base ticks in all, and memory changes by writes to the
addresses `ws` alone. -/
structure State.Works (ws : List Word) (n : Nat) (s t : State) : Prop where
  time : ∃ es, t.bus = es ++ s.bus ∧ Fills s.t es t.t ∧ baseTicks es = n
  kept : ∀ a ∉ ws, t.mem.read a.toNat = s.mem.read a.toNat
  inv : s.Inv → t.Inv

/-- And R counts `m` M1 cycles and is not written otherwise. -/
structure State.Runs (ws : List Word) (n m : Nat) (s t : State) : Prop extends State.Works ws n s t where
  counts : t.r = nextR^[m] s.r

theorem State.Works.trans {vs ws : List Word} {n k : Nat} {s t u : State} (h : s.Works vs n t) (h' : t.Works ws k u) :
    s.Works (vs ++ ws) (n + k) u := by
  obtain ⟨es, hb, hf, hn⟩ := h.time
  obtain ⟨fs, hb', hf', hk⟩ := h'.time
  refine ⟨⟨fs ++ es, by rw [hb', hb, List.append_assoc], hf.append hf', ?_⟩, fun a ha => ?_, h'.inv ∘ h.inv⟩
  · rw [baseTicks_append, hn, hk, Nat.add_comm]
  · rw [List.mem_append, not_or] at ha
    rw [h'.kept a ha.2, h.kept a ha.1]

namespace State.Runs

variable {ws : List Word} {n m : Nat} {s t u : State}

theorem refl (s : State) : s.Runs [] 0 0 s := ⟨⟨⟨[], rfl, rfl, rfl⟩, fun _ _ => rfl, id⟩, rfl⟩

/-- What is looked at is T, the trace, memory and R. -/
theorem of_eq (h : s.Runs ws n m t) (hc : u.clock = t.clock) (hm : u.mem = t.mem) (hr : u.ir = t.ir) : s.Runs ws n m u := by
  have ht : u.t = t.t := congrArg Prod.fst hc
  have hb : u.bus = t.bus := congrArg Prod.snd hc
  obtain ⟨⟨htime, hkept, hinv⟩, hcounts⟩ := h
  exact ⟨⟨by rwa [ht, hb], by rwa [hm], fun hs => State.inv_of_mem hm (hinv hs)⟩, by rwa [State.r, hr]⟩

/-- Every field but those may be written. -/
theorem update (h : s.Runs ws n m t) {af bc de hl af' bc' de' hl' ix iy sp pc wz : Word} {i1 i2 : Bool} {im : IntMode}
    {ha ei nmi irq : Bool} {d : Nat} :
    s.Runs ws n m { t with
      af := af, bc := bc, de := de, hl := hl, afAlt := af', bcAlt := bc', deAlt := de', hlAlt := hl', ix := ix, iy := iy, sp := sp
      pc := pc, wz := wz, iff1 := i1, iff2 := i2, im := im, halted := ha, eiBlock := ei, nmiPend := nmi, irqPend := irq
      draws := d } :=
  h.of_eq rfl rfl rfl

theorem setA (h : s.Runs ws n m t) {v : Byte} : s.Runs ws n m (t.setA v) := h.of_eq rfl rfl rfl
theorem setF (h : s.Runs ws n m t) {v : Byte} : s.Runs ws n m (t.setF v) := h.of_eq rfl rfl rfl
theorem setAF (h : s.Runs ws n m t) {v : Byte × Byte} : s.Runs ws n m (t.setAF v) := h.of_eq rfl rfl rfl
theorem setB (h : s.Runs ws n m t) {v : Byte} : s.Runs ws n m (t.setB v) := h.of_eq rfl rfl rfl
theorem goto (h : s.Runs ws n m t) {a : Word} : s.Runs ws n m (t.goto a) := h.of_eq rfl rfl rfl

theorem setReg (h : s.Runs ws n m t) {r : Reg8} {v : Byte} : s.Runs ws n m (t.setReg r v) :=
  h.of_eq (State.setReg_clock _ _ _) (State.setReg_mem _ _ _) (State.setReg_ir _ _ _)

theorem setRp (h : s.Runs ws n m t) {p : Rp} {w : Word} : s.Runs ws n m (t.setRp p w) :=
  h.of_eq (State.setRp_clock _ _ _) (State.setRp_mem _ _ _) (State.setRp_ir _ _ _)

theorem setRp2 (h : s.Runs ws n m t) {p : Rp2} {w : Word} : s.Runs ws n m (t.setRp2 p w) :=
  h.of_eq (State.setRp2_clock _ _ _) (State.setRp2_mem _ _ _) (State.setRp2_ir _ _ _)

theorem setIdx (h : s.Runs ws n m t) {x : Index} {w : Word} : s.Runs ws n m (t.setIdx x w) :=
  h.of_eq (State.setIdx_clock _ _ _) (State.setIdx_mem _ _ _) (State.setIdx_ir _ _ _)

theorem setHalf (h : s.Runs ws n m t) {x : Index} {i : Half} {v : Byte} : s.Runs ws n m (t.setHalf x i v) :=
  h.of_eq (State.setHalf_clock _ _ _ _) (State.setHalf_mem _ _ _ _) (State.setHalf_ir _ _ _ _)

theorem wz (h : s.Runs ws n m t) (w : Word) : s.Runs ws n m { t with wz := w } := h.update

/-- I is not R. -/
theorem setI (h : s.Runs ws n m t) {v : Byte} : s.Runs ws n m { t with ir := withHi t.ir v } :=
  ⟨⟨h.time, h.kept, h.inv⟩, (lo8_withHi t.ir v).trans h.counts⟩

/-! ### Transactions -/

theorem transact (h : s.Runs ws n m t) {k : BusKind} {a : Word} {c : Nat} {v : Option Byte} :
    s.Runs ws (n + c) m (t.transact k a c v) := by
  obtain ⟨⟨⟨es, hb, hf, hn⟩, hkept, hinv⟩, hcounts⟩ := h
  refine ⟨⟨⟨⟨k, a, v, c, t.t⟩ :: es, congrArg _ hb, ⟨hf, rfl⟩, ?_⟩, hkept, hinv⟩, hcounts⟩
  rw [← hn, Nat.add_comm]
  rfl

theorem store (h : s.Runs ws n m t) {a : Word} {v : Byte} :
    s.Runs (ws ++ [a]) n m { t with mem := t.mem.write a.toNat v } := by
  obtain ⟨⟨htime, hkept, hinv⟩, hcounts⟩ := h
  refine ⟨⟨htime, fun b hb => ?_, fun hs => Memory.wf_write a v (hinv hs)⟩, hcounts⟩
  rw [List.mem_append, not_or, List.mem_singleton] at hb
  rw [Memory.read_write_word, if_neg hb.2, hkept b hb.1]

theorem refresh (h : s.Runs ws n m t) : s.Runs ws n (m + 1) t.refresh :=
  ⟨⟨h.time, h.kept, h.inv⟩, by rw [Function.iterate_succ_apply', ← h.counts]; exact lo8_withLo _ _⟩

theorem internal (h : s.Runs ws n m t) {a : Word} (k : Nat) : s.Runs ws (n + k) m (t.internal a k) := by
  induction k generalizing n t with
  | zero => exact h
  | succ k ih =>
    rw [show n + (k + 1) = n + 1 + k by omega]
    exact ih h.transact

theorem fetchAt (h : s.Runs ws n m t) {a : Word} : s.Runs ws (n + 4) (m + 1) (t.fetchAt a) := h.transact.refresh
theorem readAt (h : s.Runs ws n m t) {a : Word} : s.Runs ws (n + 3) m (t.readAt a) := h.transact
theorem writeAt (h : s.Runs ws n m t) {a : Word} {v : Byte} : s.Runs (ws ++ [a]) (n + 3) m (t.writeAt a v) := h.transact.store
theorem ioReadAt (h : s.Runs ws n m t) {p : Word} : s.Runs ws (n + 4) m (t.ioReadAt p) := h.transact
theorem ioWriteAt (h : s.Runs ws n m t) {p : Word} {v : Byte} : s.Runs ws (n + 4) m (t.ioWriteAt p v) := h.transact
theorem ack (h : s.Runs ws n m t) {k : Nat} : s.Runs ws (n + k) (m + 1) (t.ack k) := h.transact.refresh

/-! ### Fetches, words and the stack -/

theorem opFetch (h : s.Runs ws n m t) : s.Runs ws (n + 4) (m + 1) t.opFetch := h.fetchAt.update
theorem operand (h : s.Runs ws n m t) : s.Runs ws (n + 3) m t.operand := h.readAt.update

theorem indexed (h : s.Runs ws n m t) {x : Index} {d : Byte} : s.Runs ws (n + 12) (m + 1) (t.indexed x d) :=
  (h.opFetch.operand.internal 5).update

theorem indexedCb (h : s.Runs ws n m t) {x : Index} {d : Byte} : s.Runs ws (n + 8) m (t.indexedCb x d) :=
  (h.operand.operand.internal 2).update

theorem readWordAt (h : s.Runs ws n m t) {a : Word} : s.Runs ws (n + 6) m (t.readWordAt a) := h.readAt.readAt

theorem writeWordAt (h : s.Runs ws n m t) {a w : Word} : s.Runs (ws ++ [a] ++ [a + 1]) (n + 6) m (t.writeWordAt a w) :=
  h.writeAt.writeAt

theorem push (h : s.Runs ws n m t) {w : Word} : s.Runs (ws ++ [t.sp - 1] ++ [t.sp - 2]) (n + 6) m (t.push w) := by
  rw [show t.sp - 2 = t.sp - 1 - 1 by bv_omega]
  exact h.update.writeAt.update.writeAt

theorem pop (h : s.Runs ws n m t) : s.Runs ws (n + 6) m t.pop := h.readAt.update.readAt.update
theorem popPc (h : s.Runs ws n m t) : s.Runs ws (n + 6) m t.popPc := h.pop.update

theorem modifyAt (h : s.Runs ws n m t) {a : Word} {g : Byte → Byte} : s.Runs (ws ++ [a]) (n + 7) m (t.modifyAt a g) :=
  (h.readAt.internal 1).writeAt

theorem exchangeTop (h : s.Runs ws n m t) {w : Word} :
    s.Runs (ws ++ [t.sp + 1] ++ [t.sp]) (n + 15) m (t.exchangeTop w) := by
  simp only [State.exchangeTop, State.internal_sp, State.readAt_sp]
  exact (h.readAt.readAt.internal 1).writeAt.writeAt.internal 2

/-! ### Conditions -/

/-- A branch that stores and one that does not, or not as much. -/
theorem iteStores {c d : Prop} [Decidable c] [Decidable d] {vs : List Word} {k : Nat} (hd : c ↔ d) (h : s.Runs ws n m t)
    (h' : s.Runs vs k m u) : s.Runs (if d then ws else vs) (if d then n else k) m (if c then t else u) := by
  by_cases hc : c
  · rw [if_pos hc, if_pos (hd.1 hc), if_pos (hd.1 hc)]
    exact h
  · rw [if_neg hc, if_neg (mt hd.2 hc), if_neg (mt hd.2 hc)]
    exact h'

theorem ite {c d : Prop} [Decidable c] [Decidable d] {k : Nat} (hd : c ↔ d) (h : s.Runs ws n m t) (h' : s.Runs ws k m u) :
    s.Runs ws (if d then n else k) m (if c then t else u) := by
  simpa only [ite_self] using iteStores hd h h'

/-! ### Shared meanings -/

theorem alu (h : s.Runs ws n m t) {o : AluOp} {v : Byte} : s.Runs ws n m (t.alu o v) := h.setAF
theorem incMem (h : s.Runs ws n m t) {a : Word} : s.Runs (ws ++ [a]) (n + 7) m (t.incMem a) := h.modifyAt.setF
theorem decMem (h : s.Runs ws n m t) {a : Word} : s.Runs (ws ++ [a]) (n + 7) m (t.decMem a) := h.modifyAt.setF

theorem rotMem (h : s.Runs ws n m t) {o : RotOp} {a : Word} : s.Runs (ws ++ [a]) (n + 7) m (t.rotMem o a) := h.modifyAt.setF

theorem addPair (h : s.Runs ws n m t) {v w : Word} : s.Runs ws (n + 7) m (t.addPair v w) := (h.internal 7).setF.update
theorem loadSp (h : s.Runs ws n m t) {w : Word} : s.Runs ws (n + 2) m (t.loadSp w) := (h.internal 2).update
theorem loadAir (h : s.Runs ws n m t) {v : Byte} : s.Runs ws (n + 1) m (t.loadAir v) := (h.internal 1).setAF
theorem jumpRel (h : s.Runs ws n m t) {e : Byte} : s.Runs ws (n + 5) m (t.jumpRel e) := (h.internal 5).goto
theorem repeatAt (h : s.Runs ws n m t) {a : Word} : s.Runs ws (n + 5) m (t.repeatAt a) := (h.internal 5).update

theorem pushPair (h : s.Runs ws n m t) {w : Word} : s.Runs (ws ++ [t.sp - 1] ++ [t.sp - 2]) (n + 7) m (t.pushPair w) :=
  (h.internal 1).push

theorem callTo (h : s.Runs ws n m t) {a : Word} : s.Runs (ws ++ [t.sp - 1] ++ [t.sp - 2]) (n + 7) m (t.callTo a) :=
  (h.internal 1).push.update

theorem storeWord (h : s.Runs ws n m t) {a w : Word} : s.Runs (ws ++ [a] ++ [a + 1]) (n + 12) m (t.storeWord a w) :=
  h.operand.operand.writeWordAt.update

theorem loadWord (h : s.Runs ws n m t) {a : Word} {p : Rp} : s.Runs ws (n + 12) m (t.loadWord a (·.setRp p ·)) :=
  h.operand.operand.readWordAt.update.setRp

theorem loadIdx (h : s.Runs ws n m t) {a : Word} {x : Index} : s.Runs ws (n + 12) m (t.loadWord a (·.setIdx x ·)) :=
  h.operand.operand.readWordAt.update.setIdx

theorem storeIndexedImm (h : s.Runs ws n m t) {x : Index} {d v : Byte} :
    s.Runs (ws ++ [t.ea x d]) (n + 15) (m + 1) (t.storeIndexedImm x d v) := by
  rw [show t.ea x d = t.opFetch.operand.operand.ea x d by cases x <;> simp [State.ea, State.idx]]
  exact (h.opFetch.operand.operand.internal 2).update.writeAt

theorem popIdx (h : s.Runs ws n m t) {x : Index} : s.Runs ws (n + 10) (m + 1) (t.popIdx x) := h.opFetch.pop.setIdx

theorem exchangeTopIdx (h : s.Runs ws n m t) {x : Index} :
    s.Runs (ws ++ [t.sp + 1] ++ [t.sp]) (n + 19) (m + 1) (t.exchangeTopIdx x) := h.opFetch.exchangeTop.setIdx.update

theorem stepIdx (h : s.Runs ws n m t) {x : Index} {k : Word} : s.Runs ws (n + 6) (m + 1) (t.stepIdx x k) :=
  (h.opFetch.internal 2).setIdx

theorem addIdx (h : s.Runs ws n m t) {x : Index} {p : RpX} : s.Runs ws (n + 11) (m + 1) (t.addIdx x p) :=
  h.opFetch.addPair.setIdx

theorem digitRotate (h : s.Runs ws n m t) {v a : Byte} : s.Runs (ws ++ [t.hl]) (n + 10) m (t.digitRotate v a) :=
  (h.readAt.internal 4).writeAt.setAF.update

/-! ### Block instructions -/

theorem ldBlock (s : State) (k : Word) : s.Runs [s.de] 12 1 (s.ldBlock k) :=
  ((refl s).opFetch.readAt.writeAt.internal 2).update.setF

theorem cpBlockCore (s : State) (k : Word) : s.Runs [] 12 1 (s.cpBlockCore k) := ((refl s).opFetch.readAt.internal 5).update.setF

theorem inBlock (s : State) (k : Word) : s.Runs [s.hl] 12 1 (s.inBlock k) :=
  ((refl s).opFetch.internal 1).ioReadAt.writeAt.update.setB.setF

theorem outBlock (s : State) (k : Word) : s.Runs [] 12 1 (s.outBlock k) :=
  ((refl s).opFetch.internal 1).readAt.setB.ioWriteAt.update.setF

end State.Runs

theorem sub_one_eq_zero_iff {w : Nat} (x : BitVec w) : x - 1 = 0 ↔ x = 1 := sub_eq_zero

theorem State.ldBlock_bc (s : State) (k : Word) : (s.ldBlock k).bc = s.bc - 1 := by simp [State.ldBlock]
theorem State.cpBlockCore_bc (s : State) (k : Word) : (s.cpBlockCore k).bc = s.bc - 1 := by simp [State.cpBlockCore]
theorem State.inBlock_b (s : State) (k : Word) : (s.inBlock k).b = s.b - 1 := by simp [State.inBlock, State.b]
theorem State.outBlock_b (s : State) (k : Word) : (s.outBlock k).b = s.b - 1 := by simp [State.outBlock, State.b]

namespace State.Runs

theorem ldBlockRepeat (s : State) (k : Word) : s.Runs [s.de] (if s.bc = 1 then 12 else 17) 1 (s.ldBlockRepeat k) :=
  ite (by rw [s.ldBlock_bc, sub_one_eq_zero_iff]) (ldBlock s k) (ldBlock s k).repeatAt.update

theorem cpBlockRepeat (s : State) (k : Word) :
    s.Runs [] (if s.bc = 1 ∨ s.a = s.reply 1 s.hl then 12 else 17) 1 (s.cpBlockRepeat k) :=
  ite (by rw [s.cpBlockCore_bc, sub_one_eq_zero_iff, State.byteAt, s.opFetch_reply]) (cpBlockCore s k).update
    (cpBlockCore s k).repeatAt.update

theorem inBlockRepeat (s : State) (k : Word) : s.Runs [s.hl] (if s.b = 1 then 12 else 17) 1 (s.inBlockRepeat k) :=
  ite (by rw [s.inBlock_b, sub_one_eq_zero_iff]) (inBlock s k) (inBlock s k).repeatAt

theorem outBlockRepeat (s : State) (k : Word) : s.Runs [] (if s.b = 1 then 12 else 17) 1 (s.outBlockRepeat k) :=
  ite (by rw [s.outBlock_b, sub_one_eq_zero_iff]) (outBlock s k) (outBlock s k).repeatAt

end State.Runs
end Sys2Proof.Machine
end

section
/-! SUPPORT. What every row does to the bus, to memory and to R: one line for each chain of operations, whose stores, ticks and M1
cycles are those of `Instr.stores`, `Instr.ownTicks` and `Instr.m1`. -/

namespace Sys2Proof.Machine

/-- A row's answer is read off its definition, and so, as a rule, are its ticks, its M1 cycles and the addresses it stores to. -/
theorem exec_runs_of {i : Instr} {s t : State} {ws : List Word} {n m : Nat} (hx : exec i s = .next t) (h : s.Runs ws n m t)
    (hw : ws = i.stores s := by rfl) (hn : n = i.ownTicks s := by rfl) (hm : m = i.m1 := by rfl) :
    ∃ t, exec i s = .next t ∧ s.Runs (i.stores s) (i.ownTicks s) i.m1 t := by
  subst hw hn hm
  exact ⟨t, hx, h⟩

/-- The effective address is in WZ when the byte there is stored (R573, R620). -/
theorem State.indexed_wz (s : State) (x : Index) (d : Byte) : (s.indexed x d).wz = s.ea x d := by
  cases x <;> simp [State.indexed, State.ea, State.idx]

theorem State.indexedCb_wz (s : State) (x : Index) (d : Byte) : (s.indexedCb x d).wz = s.ea x d := by
  cases x <;> simp [State.indexedCb, State.ea, State.idx]

/-- The ticks of a row that depend on a condition, without those of its prefix bytes. -/
theorem ite_ticks (c : Prop) [Decidable c] (a b k : Nat) : (if c then a - k else b - k) = (if c then a else b) - k :=
  (apply_ite (· - k) c a b).symm

/-- Every row but LD R,A, which writes R. -/
theorem exec_runs (i : Instr) (s : State) (hi : i ≠ .ldRA) :
    ∃ t, exec i s = .next t ∧ s.Runs (i.stores s) (i.ownTicks s) i.m1 t := by
  have h := State.Runs.refl s
  have hix (d : Byte) : [(s.indexed .ix d).wz] = [s.ix + sext16 d] := congrArg ([·]) (s.indexed_wz .ix d)
  have hiy (d : Byte) : [(s.indexed .iy d).wz] = [s.iy + sext16 d] := congrArg ([·]) (s.indexed_wz .iy d)
  have hixCb (d : Byte) : [(s.indexedCb .ix d).wz] = [s.ix + sext16 d] := congrArg ([·]) (s.indexedCb_wz .ix d)
  have hiyCb (d : Byte) : [(s.indexedCb .iy d).wz] = [s.iy + sext16 d] := congrArg ([·]) (s.indexedCb_wz .iy d)
  have hp (p : BcDe) : s.opFetch.bcDe p = s.bcDe p := by cases p <;> simp [State.bcDe]
  have hhl : s.opFetch.operand.hl = s.hl := by simp
  have hsp : s.opFetch.operand.operand.sp = s.sp := by simp
  cases i with
  | ldRA => exact absurd rfl hi
  | nop | cbPrefix | ddPrefix | edPrefix | fdPrefix | nopEd _ | noni _ | ddcbPrefix | rePrefixDd _ | edAfterDd | fdcbPrefix
  | rePrefixFd _ | edAfterFd => exact exec_runs_of rfl h.opFetch
  | ddIgnored _ | fdIgnored _ => exact exec_runs_of rfl h
  -- loads and exchanges
  | ldRR _ _ => exact exec_runs_of rfl h.opFetch.setReg
  | ldRN _ _ => exact exec_runs_of rfl h.opFetch.operand.setReg
  | ldRIndHl _ => exact exec_runs_of rfl h.opFetch.readAt.setReg
  | ldIndHlR _ => exact exec_runs_of rfl h.opFetch.writeAt
  | ldIndHlN _ => exact exec_runs_of rfl h.opFetch.operand.writeAt (congrArg ([·]) hhl)
  | ldRpNn _ _ => exact exec_runs_of rfl h.opFetch.operand.operand.setRp
  | ldIndRpA p => exact exec_runs_of rfl h.opFetch.writeAt.update (congrArg ([·]) (hp p))
  | ldIndNnA _ => exact exec_runs_of rfl h.opFetch.operand.operand.writeAt.update
  | ldAIndRp _ => exact exec_runs_of rfl h.opFetch.readAt.setA.update
  | ldAIndNn _ => exact exec_runs_of rfl h.opFetch.operand.operand.readAt.setA.update
  | ldIndNnHl _ | ldIndNnRp _ _ | ldIndNnIx _ | ldIndNnIy _ => exact exec_runs_of rfl h.opFetch.storeWord
  | ldHlIndNn _ | ldRpIndNn _ _ => exact exec_runs_of rfl h.opFetch.loadWord
  | ldIxIndNn _ | ldIyIndNn _ => exact exec_runs_of rfl h.opFetch.loadIdx
  | ldSpHl | ldSpIx | ldSpIy => exact exec_runs_of rfl h.opFetch.loadSp
  | pushRp2 _ | pushIx | pushIy => exact exec_runs_of rfl h.opFetch.pushPair
  | popRp2 _ => exact exec_runs_of rfl h.opFetch.pop.setRp2
  | popIx | popIy => exact exec_runs_of rfl h.popIdx
  | exAfAf | exx | exDeHl => exact exec_runs_of rfl h.opFetch.update
  | exIndSpHl => exact exec_runs_of rfl h.opFetch.exchangeTop.update
  | exIndSpIx | exIndSpIy => exact exec_runs_of rfl h.exchangeTopIdx
  | ldIA => exact exec_runs_of rfl (h.opFetch.internal 1).setI
  | ldAI | ldAR => exact exec_runs_of rfl h.opFetch.loadAir
  | ldIxNn _ | ldIyNn _ => exact exec_runs_of rfl h.opFetch.operand.operand.setIdx
  | ldIxHalfN _ _ | ldIyHalfN _ _ => exact exec_runs_of rfl h.opFetch.operand.setHalf
  | ldIxHalfR _ _ | ldIyHalfR _ _ => exact exec_runs_of rfl h.opFetch.setHalf
  | ldRIxHalf _ _ | ldRIyHalf _ _ => exact exec_runs_of rfl h.opFetch.setReg
  | ldRIndIxD _ _ | ldRIndIyD _ _ => exact exec_runs_of rfl h.indexed.readAt.setReg
  | ldIndIxDR d _ => exact exec_runs_of rfl h.indexed.writeAt (hix d)
  | ldIndIyDR d _ => exact exec_runs_of rfl h.indexed.writeAt (hiy d)
  | ldIndIxDN _ _ | ldIndIyDN _ _ => exact exec_runs_of rfl h.storeIndexedImm
  -- arithmetic and logic
  | addAR _ | adcAR _ | subR _ | sbcAR _ | andR _ | xorR _ | orR _ | cpR _ | aluIxHalf _ _ | aluIyHalf _ _ =>
    exact exec_runs_of rfl h.opFetch.alu
  | addAIndHl | adcAIndHl | subIndHl | sbcAIndHl | andIndHl | xorIndHl | orIndHl | cpIndHl =>
    exact exec_runs_of rfl h.opFetch.readAt.alu
  | addAN _ | adcAN _ | subN _ | sbcAN _ | andN _ | xorN _ | orN _ | cpN _ =>
    exact exec_runs_of rfl h.opFetch.operand.alu
  | aluIndIxD _ _ | aluIndIyD _ _ => exact exec_runs_of rfl h.indexed.readAt.alu
  | neg _ | daa | cpl | rlca | rrca | rla | rra => exact exec_runs_of rfl h.opFetch.setAF
  | scf | ccf => exact exec_runs_of rfl h.opFetch.setF
  | incR _ | decR _ => exact exec_runs_of rfl h.opFetch.setF.setReg
  | incIxHalf _ | decIxHalf _ | incIyHalf _ | decIyHalf _ => exact exec_runs_of rfl h.opFetch.setF.setHalf
  | incIndHl => exact exec_runs_of rfl h.opFetch.incMem
  | decIndHl => exact exec_runs_of rfl h.opFetch.decMem
  | incIndIxD d => exact exec_runs_of rfl h.indexed.incMem (hix d)
  | incIndIyD d => exact exec_runs_of rfl h.indexed.incMem (hiy d)
  | decIndIxD d => exact exec_runs_of rfl h.indexed.decMem (hix d)
  | decIndIyD d => exact exec_runs_of rfl h.indexed.decMem (hiy d)
  | incRp _ | decRp _ => exact exec_runs_of rfl (h.opFetch.internal 2).setRp
  | incIx | decIx | incIy | decIy => exact exec_runs_of rfl h.stepIdx
  | addHlRp _ => exact exec_runs_of rfl h.opFetch.addPair.update
  | adcHlRp _ | sbcHlRp _ => exact exec_runs_of rfl (h.opFetch.internal 7).setF.update
  | addIxRp _ | addIyRp _ => exact exec_runs_of rfl h.addIdx
  | rrd | rld => exact exec_runs_of rfl h.opFetch.digitRotate
  -- shifts, rotates and bits
  | rlcR _ | rrcR _ | rlR _ | rrR _ | slaR _ | sraR _ | sllR _ | srlR _ => exact exec_runs_of rfl h.opFetch.setF.setReg
  | rlcIndHl | rrcIndHl | rlIndHl | rrIndHl | slaIndHl | sraIndHl | sllIndHl | srlIndHl =>
    exact exec_runs_of rfl h.opFetch.rotMem
  | bitBR _ _ => exact exec_runs_of rfl h.opFetch.setF
  | bitBIndHl _ => exact exec_runs_of rfl (h.opFetch.readAt.internal 1).setF
  | resBR _ _ | setBR _ _ => exact exec_runs_of rfl h.opFetch.setReg
  | resBIndHl _ | setBIndHl _ => exact exec_runs_of rfl h.opFetch.modifyAt
  | rlcIx d | rrcIx d | rlIx d | rrIx d | slaIx d | sraIx d | sllIx d | srlIx d =>
    exact exec_runs_of rfl h.indexedCb.rotMem (hixCb d)
  | rlcIy d | rrcIy d | rlIy d | rrIy d | slaIy d | sraIy d | sllIy d | srlIy d =>
    exact exec_runs_of rfl h.indexedCb.rotMem (hiyCb d)
  | rlcIxR d _ | rrcIxR d _ | rlIxR d _ | rrIxR d _ | slaIxR d _ | sraIxR d _ | sllIxR d _ | srlIxR d _ =>
    exact exec_runs_of rfl h.indexedCb.rotMem.setReg (hixCb d)
  | rlcIyR d _ | rrcIyR d _ | rlIyR d _ | rrIyR d _ | slaIyR d _ | sraIyR d _ | sllIyR d _ | srlIyR d _ =>
    exact exec_runs_of rfl h.indexedCb.rotMem.setReg (hiyCb d)
  | bitIx _ _ _ | bitIy _ _ _ => exact exec_runs_of rfl (h.indexedCb.readAt.internal 1).setF
  | resIx d _ | setIx d _ => exact exec_runs_of rfl h.indexedCb.modifyAt (hixCb d)
  | resIy d _ | setIy d _ => exact exec_runs_of rfl h.indexedCb.modifyAt (hiyCb d)
  | resIxR d _ _ | setIxR d _ _ => exact exec_runs_of rfl h.indexedCb.modifyAt.setReg (hixCb d)
  | resIyR d _ _ | setIyR d _ _ => exact exec_runs_of rfl h.indexedCb.modifyAt.setReg (hiyCb d)
  -- control
  | halt | di | ei | im _ | jpIndHl | jpIndIx | jpIndIy => exact exec_runs_of rfl h.opFetch.update
  | jpNn _ => exact exec_runs_of rfl h.opFetch.operand.operand.goto
  | jpCcNn _ _ => exact exec_runs_of rfl h.opFetch.operand.operand.update
  | jr _ => exact exec_runs_of rfl h.opFetch.operand.jumpRel
  | jrCc cc _ =>
    have h' := h.opFetch.operand
    exact exec_runs_of rfl (.ite (d := cc.cond.holds s.f) (by simp [State.f]) h'.jumpRel h') rfl (ite_ticks _ 12 7 0)
  | djnz _ =>
    have h' (v : Byte) := (h.opFetch.internal (a := s.opFetch.ir) 1).operand.setB (v := v)
    exact exec_runs_of rfl (.ite (d := s.b = 1) (by simpa [State.b] using sub_one_eq_zero_iff s.b) (h' _) (h' _).jumpRel) rfl
      (ite_ticks _ 8 13 0)
  | callNn nn => exact exec_runs_of rfl h.opFetch.operand.operand.update.callTo (congrArg (fun a => [a - 1, a - 2]) hsp)
  | callCcNn cc nn =>
    have h' := h.opFetch.operand.operand.wz nn
    have hw := congrArg (fun a => if cc.holds s.f then [a - 1, a - 2] else []) hsp
    exact exec_runs_of rfl (.iteStores (d := cc.holds s.f) (by simp [State.f]) h'.callTo h') hw (ite_ticks _ 17 10 0)
  | rst _ => exact exec_runs_of rfl (h.opFetch.internal 1).push.goto
  | ret => exact exec_runs_of rfl h.opFetch.popPc
  | retCc cc =>
    have h' := h.opFetch.internal (a := s.opFetch.ir) 1
    exact exec_runs_of rfl (.ite (d := cc.holds s.f) (by simp [State.f]) h'.popPc h') rfl (ite_ticks _ 11 5 0)
  | reti | retn _ => exact exec_runs_of rfl h.opFetch.update.popPc
  | outNA _ => exact exec_runs_of rfl h.opFetch.operand.ioWriteAt.update
  | inAN _ => exact exec_runs_of rfl h.opFetch.operand.ioReadAt.setA.update
  | inRC _ => exact exec_runs_of rfl h.opFetch.ioReadAt.update.setF.setReg
  | inC => exact exec_runs_of rfl h.opFetch.ioReadAt.update.setF
  | outCR _ | outC0 => exact exec_runs_of rfl h.opFetch.ioWriteAt.update
  -- block instructions
  | ldi | ldd => exact exec_runs_of rfl (State.Runs.ldBlock s _)
  | cpi | cpd => exact exec_runs_of rfl (State.Runs.cpBlockCore s _).update
  | ini | ind => exact exec_runs_of rfl (State.Runs.inBlock s _)
  | outi | outd => exact exec_runs_of rfl (State.Runs.outBlock s _)
  | ldir | lddr => exact exec_runs_of rfl (State.Runs.ldBlockRepeat s _) rfl (ite_ticks _ 16 21 4)
  | cpir | cpdr => exact exec_runs_of rfl (State.Runs.cpBlockRepeat s _) rfl (ite_ticks _ 16 21 4)
  | inir | indr => exact exec_runs_of rfl (State.Runs.inBlockRepeat s _) rfl (ite_ticks _ 16 21 4)
  | otir | otdr => exact exec_runs_of rfl (State.Runs.outBlockRepeat s _) rfl (ite_ticks _ 16 21 4)

/-- LD R,A writes R after a fetch and one internal tick. -/
theorem exec_ldRA (s : State) :
    exec .ldRA s = .next { s.opFetch.internal s.opFetch.ir 1 with ir := withLo s.opFetch.ir s.opFetch.a } := rfl

/-- Every row, R left aside. -/
theorem exec_works {i : Instr} {s t : State} (ht : exec i s = .next t) : s.Works (i.stores s) (i.ownTicks s) t := by
  by_cases hi : i = .ldRA
  · subst hi
    cases (exec_ldRA s).symm.trans ht
    have h := (State.Runs.refl s).opFetch.internal (a := s.opFetch.ir) 1
    exact ⟨h.time, h.kept, h.inv⟩
  · obtain ⟨u, hu, h⟩ := exec_runs i s hi
    cases hu.symm.trans ht
    exact h.toWorks

/-- Settles O17: `exec_works` lists the stores of every row. -/
theorem memoryOutsideStoresKept : Obligations.MemoryOutsideStoresKept :=
  fun _ _ _ a ht ha => (exec_works ht).kept a ha

/-! ### The refresh count -/

/-- Bit 7 is kept and the other seven count (R105). -/
theorem nextR_toNat (r : Byte) : (nextR r).toNat = r.toNat / 128 * 128 + (r.toNat + 1) % 128 := by
  revert r
  decide

theorem iterate_nextR (r : Byte) (m : Nat) :
    (nextR^[m] r).toNat % 128 = (r.toNat + m) % 128 ∧ (nextR^[m] r).toNat / 128 = r.toNat / 128 := by
  induction m with
  | zero => exact ⟨rfl, rfl⟩
  | succ m ih =>
    rw [Function.iterate_succ_apply', nextR_toNat]
    omega

/-- Settles O18: `exec_runs` counts the M1 cycles of every row but LD R,A, and each is one `nextR`. -/
theorem refreshCountsM1 : Obligations.RefreshCountsM1 := by
  intro i s t ht hi
  obtain ⟨u, hu, h⟩ := exec_runs i s hi
  cases hu.symm.trans ht
  rw [h.counts]
  exact iterate_nextR s.r i.m1

/-! ### The step -/

/-- Taking an interrupt is an acknowledge and a push, and in mode 2 the read of the table. -/
theorem State.Runs.takeInterrupt {ws : List Word} {n m : Nat} {s t : State} (h : s.Runs ws n m t) (k : Nat) (b : Bool) :
    s.Runs (ws ++ [t.sp - 1] ++ [t.sp - 2]) (n + k + 6) (m + 1) (t.takeInterrupt k b) := by
  rw [State.takeInterrupt, State.leaveHalt_eq]
  exact h.update.ack.update.push

theorem State.acceptNmi_runs (s : State) : s.Runs [s.sp - 1, s.sp - 2] 11 1 s.acceptNmi := by
  have h : s.Runs [] 0 0 { s with nmiPend := false, eiBlock := false } := (State.Runs.refl s).update
  exact (h.takeInterrupt 5 s.iff1).goto

theorem State.acceptIrq_works (s : State) : ∃ ws n, s.Works ws n s.acceptIrq := by
  have h0 : s.Runs [] 0 0 { s with irqPend := false } := (State.Runs.refl s).update
  have h := h0.takeInterrupt 7 false
  by_cases him : s.im = .im2
  · rw [State.acceptIrq_vectored him]
    exact ⟨_, _, h.update.readWordAt.goto.toWorks⟩
  · rw [State.acceptIrq_fixed him]
    exact ⟨_, _, h.goto.toWorks⟩

/-- Row after row, by induction on how many may be read. -/
theorem executeRows_works {n : Nat} {pg : Page} {s t : State} (ht : executeRows exec n pg s = .next t) :
    ∃ ws k, s.Works ws k t := by
  induction n generalizing pg s with
  | zero => exact nomatch ht
  | succ n ih =>
    cases hd : decode pg s.window with
    | error e => simp [executeRows, hd] at ht
    | ok i =>
      cases hs : i.selects with
      | none =>
        rw [executeRows_last hd hs] at ht
        exact ⟨_, _, exec_works ht⟩
      | some pg' =>
        obtain ⟨u, hu, -⟩ := everyRowCompletesAndKeepsControlBits i s
        rw [executeRows_prefix hd hs hu] at ht
        obtain ⟨ws, k, h⟩ := ih ht
        exact ⟨_, _, (exec_works hu).trans h⟩

/-- A step is an acceptance, a halted cycle, or the rows of an instruction (R653). -/
theorem step_works {s t : State} (ht : step s = .next t) : ∃ ws n, s.Works ws n t := by
  by_cases hn : s.nmiPend = true
  · cases (step_nmi hn).symm.trans ht
    exact ⟨_, _, s.acceptNmi_runs.toWorks⟩
  rw [Bool.not_eq_true] at hn
  by_cases hi : s.irqRecognised = true
  · cases (step_irq hn hi).symm.trans ht
    exact s.acceptIrq_works
  rw [Bool.not_eq_true] at hi
  have h : s.Runs [] 0 0 { s with eiBlock := false } := (State.Runs.refl s).update
  by_cases hh : s.halted = true
  · cases (step_halted hn hi hh).symm.trans ht
    exact ⟨_, _, h.fetchAt.toWorks⟩
  · rw [Bool.not_eq_true] at hh
    rw [step_executes ⟨hn, hi, hh⟩] at ht
    obtain ⟨ws, k, hw⟩ := executeRows_works ht
    exact ⟨_, _, h.toWorks.trans hw⟩

/-- Settles O20: whatever a step is, its transactions fill its time (`step_works`). -/
theorem timeIsTheSumOfTransactions : Obligations.TimeIsTheSumOfTransactions := by
  intro s t ht
  obtain ⟨ws, n, h⟩ := step_works ht
  obtain ⟨es, hb, hf, -⟩ := h.time
  exact ⟨es, hb, hf⟩

/-- Settles O8: a step changes memory by writes alone (`step_works`), and no other operation changes it. -/
theorem canonicalMemoryIsKept : Obligations.CanonicalMemoryIsKept := by
  intro o s t hs ht
  cases o with
  | step =>
    obtain ⟨ws, n, h⟩ := step_works ht
    exact h.inv hs
  | interrupt | nmi | restart | putTicks _ | peek _ =>
    cases ht
    exact hs
  | putWord k w =>
    cases ht
    cases k <;> exact hs
  | putByte k v =>
    cases ht
    obtain ⟨p, x⟩ := k
    cases x <;> cases p <;> exact hs
  | putFlag k v =>
    cases ht
    exact hs
  | putBit k v =>
    cases ht
    cases k <;> exact hs
  | putIm n =>
    obtain _ | _ | _ | n := n <;> cases ht <;> exact hs
  | putLatch _ _ => exact nomatch ht

end Sys2Proof.Machine
end

section
/-! SUPPORT. A row that ends an instruction is decoded back from its own bytes, whatever follows them (spec/30_encoding.md R151,
R163 to R167). -/

namespace Sys2Proof

/-! ### The fields of an opcode byte and the operand codes -/

section
variable {c y z : Nat}

/-- The fields of the opcode bytes as `encode` adds them up: c holds x, and y and z stand beside it (R151). -/
theorem fieldX_opByte_add (hc : c % 64 = 0) (hy : y < 8) (hz : z < 8) : fieldX (opByte (c + 8 * y + z)) = c / 64 % 4 := by
  simp only [fieldX, opByte, BitVec.toNat_ofNat]
  omega

theorem fieldY_opByte_add (hc : c % 64 = 0) (hy : y < 8) (hz : z < 8) : fieldY (opByte (c + 8 * y + z)) = y := by
  simp only [fieldY, opByte, BitVec.toNat_ofNat]
  omega

theorem fieldZ_opByte_add (hc : c % 64 = 0) (hz : z < 8) : fieldZ (opByte (c + 8 * y + z)) = z := by
  simp only [fieldZ, opByte, BitVec.toNat_ofNat]
  omega

/-- The same where c holds z too. -/
theorem fieldX_opByte (hc : c % 64 < 8) (hy : y < 8) : fieldX (opByte (c + 8 * y)) = c / 64 % 4 := by
  simp only [fieldX, opByte, BitVec.toNat_ofNat]
  omega

theorem fieldY_opByte (hc : c % 64 < 8) (hy : y < 8) : fieldY (opByte (c + 8 * y)) = y := by
  simp only [fieldY, opByte, BitVec.toNat_ofNat]
  omega

theorem fieldZ_opByte : fieldZ (opByte (c + 8 * y)) = c % 8 := by
  simp only [fieldZ, opByte, BitVec.toNat_ofNat]
  omega

end

theorem Reg8.code_lt (r : Reg8) : r.code < 8 := by cases r <;> decide

/-- A register's code is not that of (HL), and names the register (R156). -/
theorem regOrMem_code {α : Type} (r : Reg8) (mem : α) (reg : Reg8 → α) : regOrMem r.code mem reg = reg r := by
  cases r <;> rfl

theorem regOrMem_six {α : Type} (mem : α) (reg : Reg8 → α) : regOrMem 6 mem reg = mem := rfl

/-- The word at the end of an instruction is put together from its two bytes (R114). -/
theorem ok_word (f : Word → Instr) (nn : Word) : (.ok (f (cat (hi8 nn) (lo8 nn))) : Except DecodeError Instr) = .ok (f nn) := by
  rw [cat_hi8_lo8]

/-- The NONI bytes are those outside the rows of R165. -/
theorem decodeEd_noni {op : Byte} (bs : List Byte) (h : isNoniByte op = true) : decodeEd op bs = .ok (.noni op) := by
  have hlt := op.isLt
  simp only [isNoniByte, Bool.or_eq_true, Bool.and_eq_true, decide_eq_true_eq] at h
  obtain hx | hx | hx : fieldX op = 0 ∨ fieldX op = 2 ∨ fieldX op = 3 := by
    unfold fieldX
    omega
  · simp [decodeEd, hx]
  · have hyz : ¬ (4 ≤ fieldY op ∧ fieldZ op ≤ 3) := by
      unfold fieldX at hx
      unfold fieldY fieldZ
      omega
    simp only [decodeEd, hx, if_neg hyz]
  · simp [decodeEd, hx]

/-- Every row that ends an instruction is decoded back from its encoding. -/
theorem decode_encode_last {i : Instr} (rest : List Byte) (hwf : i.wellFormed = true) (hi : i.selects = none) :
    decode i.page (encode i ++ rest) = .ok i := by
  cases i with
  | cbPrefix | ddPrefix | edPrefix | fdPrefix | ddcbPrefix | fdcbPrefix | rePrefixDd _ | rePrefixFd _ | edAfterDd | edAfterFd
  | ddIgnored _ | fdIgnored _ => exact nomatch hi
  -- a word
  | ldIndNnHl nn => exact ok_word .ldIndNnHl nn
  | ldIndNnA nn => exact ok_word .ldIndNnA nn
  | ldHlIndNn nn => exact ok_word .ldHlIndNn nn
  | ldAIndNn nn => exact ok_word .ldAIndNn nn
  | jpNn nn => exact ok_word .jpNn nn
  | callNn nn => exact ok_word .callNn nn
  | ldIxNn nn => exact ok_word .ldIxNn nn
  | ldIndNnIx nn => exact ok_word .ldIndNnIx nn
  | ldIxIndNn nn => exact ok_word .ldIxIndNn nn
  | ldIyNn nn => exact ok_word .ldIyNn nn
  | ldIndNnIy nn => exact ok_word .ldIndNnIy nn
  | ldIyIndNn nn => exact ok_word .ldIyIndNn nn
  | ldRpNn p nn => cases p <;> exact ok_word (.ldRpNn _) nn
  | ldIndNnRp p nn => cases p <;> exact ok_word (.ldIndNnRp _) nn
  | ldRpIndNn p nn => cases p <;> exact ok_word (.ldRpIndNn _) nn
  | jpCcNn cc nn => cases cc <;> exact ok_word (.jpCcNn _) nn
  | callCcNn cc nn => cases cc <;> exact ok_word (.callCcNn _) nn
  -- an operand in the opcode byte
  | jrCc k _ | addHlRp k | ldIndRpA k | ldAIndRp k | incRp k | decRp k | incR k | decR k | ldRN k _ | ldRIndHl k | ldIndHlR k
  | addAR k | adcAR k | subR k | sbcAR k | andR k | xorR k | orR k | cpR k | retCc k | popRp2 k | pushRp2 k
  | rlcR k | rrcR k | rlR k | rrR k | slaR k | sraR k | sllR k | srlR k | inRC k | outCR k | sbcHlRp k | adcHlRp k
  | addIxRp k | incIxHalf k | decIxHalf k | ldIxHalfN k _ | ldRIndIxD k _ | ldIndIxDR _ k | aluIndIxD k _
  | addIyRp k | incIyHalf k | decIyHalf k | ldIyHalfN k _ | ldRIndIyD k _ | ldIndIyDR _ k | aluIndIyD k _
  | rlcIxR _ k | rrcIxR _ k | rlIxR _ k | rrIxR _ k | slaIxR _ k | sraIxR _ k | sllIxR _ k | srlIxR _ k
  | rlcIyR _ k | rrcIyR _ k | rlIyR _ k | rrIyR _ k | slaIyR _ k | sraIyR _ k | sllIyR _ k | srlIyR _ k => cases k <;> rfl
  | ldRR j k | ldRIxHalf j k | ldIxHalfR j k | aluIxHalf j k | ldRIyHalf j k | ldIyHalfR j k | aluIyHalf j k =>
    cases j <;> cases k <;> rfl
  -- a bit number or another field of three bits
  | bitBR b r | resBR b r | setBR b r =>
    exact congrArg Except.ok (by
      simp [decodeCb, fieldX_opByte_add, fieldY_opByte_add, fieldZ_opByte_add, b.isLt, r.code_lt, regOrMem_code])
  | bitBIndHl b | resBIndHl b | setBIndHl b =>
    exact congrArg Except.ok (by simp [decodeCb, fieldX_opByte, fieldY_opByte, fieldZ_opByte, b.isLt, regOrMem_six])
  | resIxR _ b r | setIxR _ b r =>
    exact congrArg Except.ok (by
      simp [decodeDdcb, fieldX_opByte_add, fieldY_opByte_add, fieldZ_opByte_add, b.isLt, r.code_lt, regOrMem_code])
  | resIyR _ b r | setIyR _ b r =>
    exact congrArg Except.ok (by
      simp [decodeFdcb, fieldX_opByte_add, fieldY_opByte_add, fieldZ_opByte_add, b.isLt, r.code_lt, regOrMem_code])
  | resIx _ b | setIx _ b =>
    exact congrArg Except.ok (by simp [decodeDdcb, fieldX_opByte, fieldY_opByte, fieldZ_opByte, b.isLt, regOrMem_six])
  | resIy _ b | setIy _ b =>
    exact congrArg Except.ok (by simp [decodeFdcb, fieldX_opByte, fieldY_opByte, fieldZ_opByte, b.isLt, regOrMem_six])
  | bitIx _ b z =>
    exact congrArg Except.ok (by
      simp [decodeDdcb, fieldX_opByte_add, fieldY_opByte_add, fieldZ_opByte_add, b.isLt, z.isLt])
  | bitIy _ b z =>
    exact congrArg Except.ok (by
      simp [decodeFdcb, fieldX_opByte_add, fieldY_opByte_add, fieldZ_opByte_add, b.isLt, z.isLt])
  | rst y =>
    show decodeBase (opByte (0xC7 + 8 * y.toNat)) rest = _
    simp [decodeBase, fieldX_opByte, fieldY_opByte, fieldZ_opByte, y.isLt]
  | neg y =>
    show decodeEd (opByte (0x44 + 8 * y.toNat)) rest = _
    simp [decodeEd, fieldX_opByte, fieldY_opByte, fieldZ_opByte, y.isLt]
  | im y =>
    show decodeEd (opByte (0x46 + 8 * y.toNat)) rest = _
    simp [decodeEd, fieldX_opByte, fieldY_opByte, fieldZ_opByte, y.isLt]
  | retn y =>
    show decodeEd (opByte (0x45 + 8 * y.toNat)) rest = _
    have hy : y.toNat ≠ 1 := fun h => by
      rw [show y = 1 from BitVec.eq_of_toNat_eq h] at hwf
      exact absurd hwf (by decide)
    simp [decodeEd, fieldX_opByte, fieldY_opByte, fieldZ_opByte, y.isLt, hy]
  | nopEd q =>
    obtain rfl | rfl : q = 0 ∨ q = 1 := by revert q; decide
    · rfl
    · rfl
  | noni op => exact decodeEd_noni rest hwf
  | _ => rfl

end Sys2Proof
end

section
/-! SUPPORT. A step whose bytes at PC are those of a whole instruction: its prefix rows are fetched one by one, then its row is
run (spec/30_encoding.md R153), and what that costs (R173). -/

namespace Sys2Proof.Machine

/-! ### The bytes ahead -/

/-- `State.reply_shift` for a list of answers. -/
theorem State.answers_shift {s u : State} {n : Nat} (hg : u.agent = s.agent) (hm : u.mem = s.mem) (hd : u.draws = s.draws + n)
    {vs : List Byte} {k : Nat} {a : Word} (h : s.Answers (k + n) a vs) : u.Answers k a vs := by
  induction vs generalizing k a with
  | nil => trivial
  | cons v vs ih =>
    obtain ⟨hv, hvs⟩ := h
    rw [Nat.add_right_comm] at hvs
    exact ⟨by rw [State.reply_shift a hg hm hd, Nat.add_comm, hv], ih hvs⟩

/-- A fetch takes the first of the bytes at PC. -/
theorem State.bytesAt_opFetch {s : State} {v : Byte} {vs : List Byte} (h : s.BytesAt s.pc (v :: vs)) :
    s.opFetch.BytesAt s.opFetch.pc vs :=
  State.answers_shift (s := s) (u := s.opFetch) (n := 1) rfl rfl rfl h.2

/-- The decoder looks at the bytes at PC, and at what follows them. -/
theorem State.window_of_bytesAt {s : State} {vs : List Byte} (h : s.BytesAt s.pc vs) (hlen : vs.length ≤ 3) :
    ∃ rest, s.window = vs ++ rest := by
  have h2 : s.pc + 1 + 1 = s.pc + 2 := by bv_omega
  match vs, h with
  | [], _ => exact ⟨s.window, rfl⟩
  | [u], ⟨hu, _⟩ => exact ⟨_, by rw [State.window, hu]; rfl⟩
  | [u, v], ⟨hu, hv, _⟩ => exact ⟨_, by rw [State.window, hu, hv]; rfl⟩
  | [u, v, w], ⟨hu, hv, hw, _⟩ => exact ⟨[], by rw [State.window, hu, hv, ← h2, hw]; rfl⟩
  | _ :: _ :: _ :: _ :: _, _ => exact absurd hlen (by simp)

/-- The first byte at PC is the first the decoder looks at. -/
theorem State.window_of_bytesAt_cons {s : State} {v : Byte} {vs : List Byte} (h : s.BytesAt s.pc (v :: vs)) :
    ∃ rest, s.window = v :: rest := State.window_of_bytesAt (vs := [v]) ⟨h.1, trivial⟩ (by simp)

/-! ### From the first byte of an instruction to its row -/

/-- A prefix byte is one row, and its page is the next row's. -/
theorem executeRows_prefix_byte {n : Nat} {pg pg' : Page} {s : State} {v : Byte} {vs : List Byte} {p : Instr}
    (hd : ∀ rest, decode pg (v :: rest) = .ok p) (hs : p.selects = some pg') (hx : exec p s = .next s.opFetch)
    (h : s.BytesAt s.pc (v :: vs)) : executeRows exec (n + 1) pg s = executeRows exec n pg' s.opFetch := by
  obtain ⟨rest, hw⟩ := State.window_of_bytesAt_cons h
  exact executeRows_prefix (hw ▸ hd rest) hs hx

theorem length_encode_le {i : Instr} (hi : i.selects = none) : (encode i).length ≤ 3 := by
  cases i with
  | rePrefixDd _ | rePrefixFd _ => exact nomatch hi
  | _ => exact Nat.le_of_ble_eq_true rfl

/-- The row that ends the instruction, at its own bytes. -/
theorem executeRows_row {n : Nat} {s : State} {i : Instr} (hwf : i.wellFormed = true) (hi : i.selects = none)
    (h : s.BytesAt s.pc (encode i)) : executeRows exec (n + 1) i.page s = exec i s := by
  obtain ⟨rest, hw⟩ := State.window_of_bytesAt h (length_encode_le hi)
  exact executeRows_last (hw ▸ decode_encode_last rest hwf hi) hi

/-- At most two prefix bytes lead to a page, each an M1 fetch. -/
theorem executeRows_leadIn {n : Nat} (pg : Page) {s : State} {vs : List Byte} (h : s.BytesAt s.pc (pg.leadIn ++ vs)) :
    ∃ k, executeRows exec (n + 2) .base s = executeRows exec (n + k) pg (State.opFetch^[pg.leadIn.length] s)
      ∧ (State.opFetch^[pg.leadIn.length] s).BytesAt (State.opFetch^[pg.leadIn.length] s).pc vs := by
  cases pg with
  | base => exact ⟨2, rfl, h⟩
  | cb => exact ⟨1, executeRows_prefix_byte (p := .cbPrefix) (fun _ => rfl) rfl rfl h, State.bytesAt_opFetch h⟩
  | ed => exact ⟨1, executeRows_prefix_byte (p := .edPrefix) (fun _ => rfl) rfl rfl h, State.bytesAt_opFetch h⟩
  | dd => exact ⟨1, executeRows_prefix_byte (p := .ddPrefix) (fun _ => rfl) rfl rfl h, State.bytesAt_opFetch h⟩
  | fd => exact ⟨1, executeRows_prefix_byte (p := .fdPrefix) (fun _ => rfl) rfl rfl h, State.bytesAt_opFetch h⟩
  | ddcb =>
    have h' := State.bytesAt_opFetch h
    exact ⟨0, (executeRows_prefix_byte (p := .ddPrefix) (fun _ => rfl) rfl rfl h).trans
      (executeRows_prefix_byte (p := .ddcbPrefix) (fun _ => rfl) rfl rfl h'), State.bytesAt_opFetch h'⟩
  | fdcb =>
    have h' := State.bytesAt_opFetch h
    exact ⟨0, (executeRows_prefix_byte (p := .fdPrefix) (fun _ => rfl) rfl rfl h).trans
      (executeRows_prefix_byte (p := .fdcbPrefix) (fun _ => rfl) rfl rfl h'), State.bytesAt_opFetch h'⟩

/-- One step runs the whole instruction at PC. -/
theorem step_of_bytesAt {s : State} {i : Instr} (hs : s.Executes) (hwf : i.wellFormed = true) (hi : i.selects = none)
    (h : s.BytesAt s.pc (encodeFull i)) :
    step s = exec i (State.opFetch^[i.page.leadIn.length] { s with eiBlock := false }) := by
  have h0 : { s with eiBlock := false }.BytesAt s.pc (i.page.leadIn ++ encode i) :=
    State.answers_shift (s := s) (u := { s with eiBlock := false }) (n := 0) rfl rfl rfl h
  obtain ⟨k, hx, hb⟩ := executeRows_leadIn (n := 65535) i.page h0
  rw [step_executes hs, show rowLimit = 65535 + 2 from rfl, hx, show 65535 + k = 65534 + k + 1 by omega]
  exact executeRows_row hwf hi hb

/-! ### The ticks of a step -/

theorem State.Runs.opFetches (s : State) (k : Nat) : s.Runs [] (4 * k) k (State.opFetch^[k] s) := by
  induction k with
  | zero => exact refl s
  | succ k ih =>
    rw [Function.iterate_succ_apply']
    exact ih.opFetch

theorem State.opFetches_eiBlock (s : State) (b : Bool) (k : Nat) :
    State.opFetch^[k] { s with eiBlock := b } = { State.opFetch^[k] s with eiBlock := b } := by
  induction k with
  | zero => rfl
  | succ k ih => rw [Function.iterate_succ_apply', Function.iterate_succ_apply', ih]; rfl

/-- EI_BLOCK is no condition of any row. -/
theorem tstates_eiBlock (i : Instr) (s : State) (b : Bool) : i.tstates { s with eiBlock := b } = i.tstates s := by
  cases i <;> rfl

/-- The ticks of a row and of the prefix bytes before it (R173). -/
theorem tstates_eq {i : Instr} (s : State) (hi : i.selects = none) :
    i.tstates s = 4 * i.page.leadIn.length + i.ownTicks s := by
  have hle : 4 * i.page.leadIn.length ≤ i.tstates s := by
    cases i with
    | djnz _ | jrCc _ _ | retCc _ | callCcNn _ _ => exact Nat.zero_le _
    | ldir | lddr | cpir | cpdr | inir | indr | otir | otdr => 
      show 4 ≤ ite _ 16 21
      split <;> decide
    | ddIgnored _ | fdIgnored _ => exact nomatch hi
    | _ => exact Nat.le_of_ble_eq_true rfl
  simp [Instr.ownTicks, hi, hle]

/-- Settles O19: the step is the row after its prefix fetches (`step_of_bytesAt`), whose ticks are `State.Runs.opFetches` and
`exec_works`. -/
theorem stepTakesTableTicks : Obligations.StepTakesTableTicks := by
  intro s t i hs hwf hi hb ht
  rw [step_of_bytesAt hs hwf hi hb, State.opFetches_eiBlock] at ht
  have hlead : s.Runs [] _ _ { State.opFetch^[i.page.leadIn.length] s with eiBlock := false } := (State.Runs.opFetches s _).update
  obtain ⟨es, hes, -, hn⟩ := (hlead.toWorks.trans (exec_works ht)).time
  rw [hes, baseTicks_append, hn, ← tstates_eq _ hi, tstates_eiBlock, Nat.add_comm]

end Sys2Proof.Machine
end

section
/-! SUPPORT. What a page answers to an opcode byte is one of its rows, well formed and with that byte in its encoding, and it is
read from that byte and at most two more (spec/30_encoding.md R151, R163 to R168, R173, R175). -/

namespace Sys2Proof

/-! ### Opcode bytes and operand codes, from the byte to the row -/

/-- The fields of an opcode byte (R151). -/
theorem fields_of_byte (op : Byte) :
    op.toNat = 64 * fieldX op + 8 * fieldY op + fieldZ op ∧ fieldX op < 4 ∧ fieldY op < 8 ∧ fieldZ op < 8
      ∧ fieldP op = fieldY op / 2 ∧ fieldQ op = fieldY op % 2 := by
  have hlt := op.isLt
  unfold fieldP fieldQ fieldX fieldY fieldZ
  omega

theorem opByte_of_toNat {op : Byte} {n : Nat} (h : op.toNat = n) : opByte n = op := by
  rw [← h, opByte, BitVec.ofNat_toNat, BitVec.setWidth_eq]

theorem Reg8.code_ofCode {k : Nat} (h : k < 8) (h6 : k ≠ 6) : (Reg8.ofCode k).code = k := by decide +revert
theorem Rp.code_ofCode {k : Nat} (h : k < 4) : (Rp.ofCode k).code = k := by decide +revert
theorem Rp2.code_ofCode {k : Nat} (h : k < 4) : (Rp2.ofCode k).code = k := by decide +revert
theorem BcDe.code_ofCode {k : Nat} (h : k < 2) : (BcDe.ofCode k).code = k := by decide +revert
theorem Cond.code_ofCode {k : Nat} (h : k < 8) : (Cond.ofCode k).code = k := by decide +revert
theorem JrCond.code_ofCode {k : Nat} (h : k < 4) : (JrCond.ofCode k).code = k := by decide +revert
theorem AluOp.code_ofCode {k : Nat} (h : k < 8) : (AluOp.ofCode k).code = k := by decide +revert
theorem RotOp.code_ofCode {k : Nat} (h : k < 8) : (RotOp.ofCode k).code = k := by decide +revert
theorem Half.code_ofCode {k : Nat} (h : k < 2) : (Half.ofCode k).code = k := by decide +revert
theorem RpX.code_ofCode {k : Nat} (h : k < 4) : (RpX.ofCode k).code = k := by decide +revert
theorem Reg8X.code_ofCode {k : Nat} (h : k < 8) (h6 : k ≠ 6) : (Reg8X.ofCode k).code = k := by decide +revert
theorem Reg8NoHL.code_ofCode {k : Nat} (h : k < 8) (hk : k < 4 ∨ k = 7) : (Reg8NoHL.ofCode k).code = k := by
  decide +revert

/-- A field of three bits as an operand. -/
theorem toNat_ofNat_three {k : Nat} (h : k < 8) : (BitVec.ofNat 3 k).toNat = k := Nat.mod_eq_of_lt h

/-! ### Rows and how they are read -/

/-- A well-formed row of a page, with its bytes. -/
structure Instr.IsRow (i : Instr) (pg : Page) (vs : List Byte) : Prop where
  wellFormed : i.wellFormed = true
  page_eq : i.page = pg
  encode_eq : encode i = vs

/-- What a page answers to an opcode byte with the bytes `bs` after it: a row of that byte, alone or with the operand bytes it
takes from `bs` (R154). -/
inductive Reads (pg : Page) (op : Byte) (bs : List Byte) : Except DecodeError Instr → Prop
  | one {i : Instr} (h : i.IsRow pg [op]) : Reads pg op bs (.ok i)
  | byte {f : Byte → Instr} (h : ∀ n, (f n).IsRow pg [op, n]) : Reads pg op bs (withByte bs f)
  | word {f : Word → Instr} (h : ∀ nn, (f nn).IsRow pg [op, lo8 nn, hi8 nn]) : Reads pg op bs (withWord bs f)
  | two {f : Byte → Byte → Instr} (h : ∀ d n, (f d n).IsRow pg [op, d, n]) : Reads pg op bs (withTwo bs f)

/-- The row read is a row of the page, and its bytes are the first of those it was read from. -/
theorem Reads.row {pg : Page} {op : Byte} {bs : List Byte} {r : Except DecodeError Instr} {i : Instr} (h : Reads pg op bs r)
    (hr : r = .ok i) : i.wellFormed = true ∧ i.page = pg ∧ encode i <+: op :: bs := by
  have of_row {vs : List Byte} (hi : i.IsRow pg vs) (hvs : vs <+: op :: bs) :
      i.wellFormed = true ∧ i.page = pg ∧ encode i <+: op :: bs := ⟨hi.wellFormed, hi.page_eq, hi.encode_eq ▸ hvs⟩
  cases h with
  | one hi =>
    cases hr
    exact of_row hi ⟨bs, rfl⟩
  | byte hf =>
    match bs, hr with
    | n :: bs, rfl => exact of_row (hf n) ⟨bs, rfl⟩
  | word hf =>
    match bs, hr with
    | l :: h :: bs, rfl => exact of_row (hf (cat h l)) ⟨bs, by rw [lo8_cat, hi8_cat]; rfl⟩
  | two hf =>
    match bs, hr with
    | d :: n :: bs, rfl => exact of_row (hf d n) ⟨bs, rfl⟩

/-- Two more bytes are enough. -/
theorem Reads.exists_ok {pg : Page} {op c d : Byte} {r : Except DecodeError Instr} (h : Reads pg op [c, d] r) :
    ∃ i, r = .ok i := by
  cases h with
  | one _ | byte _ | word _ | two _ => exact ⟨_, rfl⟩

section
variable {i : Instr} {pg : Page} {op d : Byte} {n : Nat} {vs : List Byte} {r : Reg8}

/-- A row whose opcode byte comes first. -/
theorem Instr.IsRow.of_toNat (hwf : i.wellFormed = true) (hpg : i.page = pg) (henc : encode i = opByte n :: vs)
    (hop : op.toNat = n) : i.IsRow pg (op :: vs) := ⟨hwf, hpg, by rw [henc, opByte_of_toNat hop]⟩

/-- A row of the DDCB or FDCB page: its opcode byte comes after d (R620). -/
theorem Instr.IsRow.of_toNat_after (hwf : i.wellFormed = true) (hpg : i.page = pg) (henc : encode i = [d, opByte n])
    (hop : op.toNat = n) : i.IsRow pg [d, op] := ⟨hwf, hpg, by rw [henc, opByte_of_toNat hop]⟩

/-- An operand code is that of (HL), or of one register (R156). -/
theorem Instr.IsRow.of_regOrMem {k : Nat} {mem : Instr} {reg : Reg8 → Instr} (hk : k < 8) (hmem : k = 6 → mem.IsRow pg vs)
    (hreg : ∀ r : Reg8, r.code = k → (reg r).IsRow pg vs) : (regOrMem k mem reg).IsRow pg vs := by
  unfold regOrMem
  split
  case isTrue h6 => exact hmem h6
  case isFalse h6 => exact hreg _ (Reg8.code_ofCode hk h6)

theorem AluOp.onR_isRow {o : AluOp} (hop : op.toNat = 0x80 + 8 * o.code + r.code) : (o.onR r).IsRow .base [op] := by
  cases o <;> exact .of_toNat rfl rfl rfl hop

theorem AluOp.onIndHl_isRow {o : AluOp} (hop : op.toNat = 0x86 + 8 * o.code) : o.onIndHl.IsRow .base [op] := by
  cases o <;> exact .of_toNat rfl rfl rfl hop

theorem AluOp.onN_isRow {o : AluOp} (hop : op.toNat = 0xC6 + 8 * o.code) (n : Byte) : (o.onN n).IsRow .base [op, n] := by
  cases o <;> exact .of_toNat rfl rfl rfl hop

theorem RotOp.onR_isRow {o : RotOp} (hop : op.toNat = 8 * o.code + r.code) : (o.onR r).IsRow .cb [op] := by
  cases o <;> exact .of_toNat rfl rfl rfl hop

theorem RotOp.onIndHl_isRow {o : RotOp} (hop : op.toNat = 8 * o.code + 6) : o.onIndHl.IsRow .cb [op] := by
  cases o <;> exact .of_toNat rfl rfl rfl hop

theorem RotOp.onIndex_isRow {o : RotOp} (hop : op.toNat = 8 * o.code + 6) :
    (o.onIx d).IsRow .ddcb [d, op] ∧ (o.onIy d).IsRow .fdcb [d, op] := by
  cases o <;> exact ⟨.of_toNat_after rfl rfl rfl hop, .of_toNat_after rfl rfl rfl hop⟩

theorem RotOp.onIndexR_isRow {o : RotOp} (hop : op.toNat = 8 * o.code + r.code) :
    (o.onIxR d r).IsRow .ddcb [d, op] ∧ (o.onIyR d r).IsRow .fdcb [d, op] := by
  cases o <;> exact ⟨.of_toNat_after rfl rfl rfl hop, .of_toNat_after rfl rfl rfl hop⟩

end

/-! ### The pages, branch by branch of the decoder -/

/-- The base page (R163). Each leaf of the decoder is one case of `Reads`, and the byte its row encodes is put together from the
fields that lead to the leaf; so on the other pages. -/
theorem decodeBase_reads (op : Byte) (bs : List Byte) : Reads .base op bs (decodeBase op bs) := by
  obtain ⟨hop, hx4, hy, hz, hp, hq⟩ := fields_of_byte op
  have halu := AluOp.code_ofCode hy
  simp only [decodeBase]
  split
  case h_1 hx =>
    unfold regOrMem
    repeat' split
    all_goals
      constructor
      intros
      refine .of_toNat rfl rfl rfl ?_
      grind [Reg8.code_ofCode, Rp.code_ofCode, BcDe.code_ofCode, JrCond.code_ofCode]
  case h_2 hx =>
    unfold regOrMem
    repeat' split
    all_goals
      refine .one (.of_toNat rfl rfl rfl ?_)
      grind [Reg8.code_ofCode]
  case h_3 hx =>
    exact .one (.of_regOrMem hz (fun _ => AluOp.onIndHl_isRow (by omega)) fun _ _ => AluOp.onR_isRow (by omega))
  case h_4 h0 h1 h2 =>
    have hx3 : fieldX op = 3 := by grind
    split
    case h_7 hz6 => exact .byte (AluOp.onN_isRow (by omega))
    all_goals
      repeat' split
      all_goals
        constructor
        intros
        refine .of_toNat rfl rfl rfl ?_
        grind [Rp2.code_ofCode, Cond.code_ofCode, BitVec.toNat_ofNat]

/-- The CB page (R164). -/
theorem decodeCb_isRow (op : Byte) : (decodeCb op).IsRow .cb [op] := by
  obtain ⟨hop, hx4, hy, hz, -, -⟩ := fields_of_byte op
  have hrot := RotOp.code_ofCode hy
  have hb := toNat_ofNat_three hy
  simp only [decodeCb]
  split
  case h_1 hx => exact .of_regOrMem hz (fun _ => RotOp.onIndHl_isRow (by omega)) fun _ _ => RotOp.onR_isRow (by omega)
  all_goals exact .of_regOrMem hz (fun _ => .of_toNat rfl rfl rfl (by grind)) fun _ _ => .of_toNat rfl rfl rfl (by grind)

/-- RETN has every y but 1, which is RETI's (R458). -/
theorem retn_isRow {op : Byte} (hx : fieldX op = 1) (hz : fieldZ op = 5) (hy1 : fieldY op ≠ 1) :
    (Instr.retn (BitVec.ofNat 3 (fieldY op))).IsRow .ed [op] := by
  obtain ⟨hop, -, hy, -, -, -⟩ := fields_of_byte op
  have hb := toNat_ofNat_three hy
  refine .of_toNat (bne_iff_ne.mpr fun h => hy1 ?_) rfl rfl (by omega)
  rw [← hb, h]
  rfl

/-- The NONI bytes are those outside x = 1 and outside the block instructions (R470). -/
theorem noni_isRow {op : Byte} (hx : fieldX op ≠ 1) (hyz : fieldX op = 2 → ¬ (4 ≤ fieldY op ∧ fieldZ op ≤ 3)) :
    (Instr.noni op).IsRow .ed [op] := by
  obtain ⟨hop, hx4, hy, hz, -, -⟩ := fields_of_byte op
  refine ⟨?_, rfl, rfl⟩
  simp only [Instr.wellFormed, isNoniByte, Bool.or_eq_true, Bool.and_eq_true, decide_eq_true_eq]
  omega

/-- The ED page (R165). -/
theorem decodeEd_reads (op : Byte) (bs : List Byte) : Reads .ed op bs (decodeEd op bs) := by
  obtain ⟨hop, hx4, hy, hz, hp, hq⟩ := fields_of_byte op
  simp only [decodeEd, regOrMem]
  split
  case h_1 hx =>
    split
    case h_6 hz5 =>
      split
      case isTrue hy1 => exact .one (.of_toNat rfl rfl rfl (by grind))
      case isFalse hy1 => exact .one (retn_isRow hx hz5 hy1)
    all_goals
      repeat' split
      all_goals
        constructor
        intros
        refine .of_toNat rfl rfl rfl ?_
        grind [Reg8.code_ofCode, Rp.code_ofCode, BitVec.toNat_ofNat]
  case h_2 hx =>
    split
    case isTrue hyz =>
      unfold decodeBlock
      split
      all_goals
        refine .one (.of_toNat rfl rfl rfl ?_)
        grind
    case isFalse hyz => exact .one (noni_isRow (by omega) fun _ => hyz)
  case h_3 hx1 hx2 => exact .one (noni_isRow hx1 fun h => absurd h hx2)

/-- The bytes with a row of their own on the DD and FD pages, branch by branch of their decoders (R166). -/
theorem hasIndexRow_iff (op : Byte) : hasIndexRow op = true ↔
    fieldX op = 0 ∧ (fieldZ op = 1 ∧ (fieldQ op = 1 ∨ fieldP op = 2)
      ∨ (fieldZ op = 2 ∨ fieldZ op = 3) ∧ (fieldY op = 4 ∨ fieldY op = 5)
      ∨ (fieldZ op = 4 ∨ fieldZ op = 5 ∨ fieldZ op = 6) ∧ (fieldY op = 4 ∨ fieldY op = 5 ∨ fieldY op = 6))
    ∨ fieldX op = 1 ∧ (fieldY op = 4 ∨ fieldY op = 5 ∨ fieldY op = 6 ∧ fieldZ op ≠ 6
      ∨ fieldY op ≠ 6 ∧ (fieldZ op = 4 ∨ fieldZ op = 5 ∨ fieldZ op = 6))
    ∨ fieldX op = 2 ∧ (fieldZ op = 4 ∨ fieldZ op = 5 ∨ fieldZ op = 6)
    ∨ fieldX op = 3 ∧ (op.toNat = 0xE1 ∨ op.toNat = 0xE3 ∨ op.toNat = 0xE5 ∨ op.toNat = 0xE9 ∨ op.toNat = 0xF9
      ∨ op.toNat = 0xCB ∨ op.toNat = 0xDD ∨ op.toNat = 0xFD ∨ op.toNat = 0xED) := by
  decide +revert

/-- Before a byte without a row of its own DD and FD are ignored (R571). -/
theorem decode_index_ignored {op : Byte} (bs : List Byte) (h : hasIndexRow op = false) :
    decodeDd op bs = .ok (.ddIgnored op) ∧ decodeFd op bs = .ok (.fdIgnored op) := by
  obtain ⟨-, hx4, -⟩ := fields_of_byte op
  rw [← Bool.not_eq_true, hasIndexRow_iff] at h
  simp only [decodeDd, decodeFd]
  constructor
  all_goals
    repeat' split
    any_goals rfl
    -- every other leaf is a byte of `hasIndexRow_iff`
    all_goals
      exfalso
      grind

/-- An ignored DD is a row of the bytes without one of their own (R571). -/
theorem ddIgnored_isRow {op : Byte} (h : ¬ hasIndexRow op = true) : (Instr.ddIgnored op).IsRow .dd [op] :=
  ⟨by simpa [Instr.wellFormed] using h, rfl, rfl⟩

/-- An ignored FD is a row of the bytes without one of their own (R571). -/
theorem fdIgnored_isRow {op : Byte} (h : ¬ hasIndexRow op = true) : (Instr.fdIgnored op).IsRow .fd [op] :=
  ⟨by simpa [Instr.wellFormed] using h, rfl, rfl⟩

/-- The DD and FD pages (R166): the leaves that ignore the prefix, then those of an index row. -/
theorem decode_index_reads (op : Byte) (bs : List Byte) :
    Reads .dd op bs (decodeDd op bs) ∧ Reads .fd op bs (decodeFd op bs) := by
  obtain ⟨hop, hx4, hy, hz, hp, hq⟩ := fields_of_byte op
  simp only [decodeDd, decodeFd]
  constructor
  all_goals repeat' split
  any_goals
    refine .one (ddIgnored_isRow (mt (hasIndexRow_iff op).mp ?_))
    grind
  any_goals
    refine .one (fdIgnored_isRow (mt (hasIndexRow_iff op).mp ?_))
    grind
  all_goals
    constructor
    intros
    refine .of_toNat rfl rfl rfl ?_
    grind [RpX.code_ofCode, Half.code_ofCode, Reg8.code_ofCode, Reg8X.code_ofCode, Reg8NoHL.code_ofCode,
      AluOp.code_ofCode]

/-- The DDCB and FDCB pages (R167): the bytes are d and the opcode. -/
theorem decode_indexCb_isRow (d op : Byte) :
    (decodeDdcb d op).IsRow .ddcb [d, op] ∧ (decodeFdcb d op).IsRow .fdcb [d, op] := by
  obtain ⟨hop, hx4, hy, hz, -, -⟩ := fields_of_byte op
  have hrot := RotOp.code_ofCode hy
  have hb := toNat_ofNat_three hy
  have hb' := toNat_ofNat_three hz
  obtain hx | hx | hx | hx : fieldX op = 0 ∨ fieldX op = 1 ∨ fieldX op = 2 ∨ fieldX op = 3 := by omega
  all_goals simp only [decodeDdcb, decodeFdcb, hx]
  case inl =>
    exact ⟨.of_regOrMem hz (fun _ => (RotOp.onIndex_isRow (by omega)).1) fun _ _ => (RotOp.onIndexR_isRow (by omega)).1,
      .of_regOrMem hz (fun _ => (RotOp.onIndex_isRow (by omega)).2) fun _ _ => (RotOp.onIndexR_isRow (by omega)).2⟩
  case inr.inl => exact ⟨.of_toNat_after rfl rfl rfl (by grind), .of_toNat_after rfl rfl rfl (by grind)⟩
  all_goals
    constructor
    all_goals
      exact .of_regOrMem hz (fun _ => .of_toNat_after rfl rfl rfl (by grind)) fun _ _ =>
        .of_toNat_after rfl rfl rfl (by grind)

/-- Every page reads a row of its own at every opcode byte (R168). On the DDCB and FDCB pages the first byte is d. -/
theorem decode_reads (pg : Page) (op : Byte) (bs : List Byte) : Reads pg op bs (decode pg (op :: bs)) := by
  cases pg with
  | base => exact decodeBase_reads op bs
  | cb => exact .one (decodeCb_isRow op)
  | ed => exact decodeEd_reads op bs
  | dd => exact (decode_index_reads op bs).1
  | fd => exact (decode_index_reads op bs).2
  | ddcb => exact .byte fun n => (decode_indexCb_isRow op n).1
  | fdcb => exact .byte fun n => (decode_indexCb_isRow op n).2

end Sys2Proof
end

section
/-! SUPPORT. The decoder and the encoder (spec/30_encoding.md): a row is read back from its bytes, a row read has the bytes it was
read from, and the prefix bytes of an instruction are rows of their own (R152, R153). -/

namespace Sys2Proof

/-! ### From the row to its bytes and back -/

/-- Settles O1: a row that ends its instruction is `decode_encode_last`; an ignored prefix is decided on a byte without an index
row (`decode_index_ignored`); every other prefix row is one fixed byte. -/
theorem decodeOfEncodeIsTheRow : Obligations.DecodeOfEncodeIsTheRow := by
  intro i rest hwf
  cases i with
  | ddIgnored op => exact (decode_index_ignored rest (by simpa [Instr.wellFormed] using hwf)).1
  | fdIgnored op => exact (decode_index_ignored rest (by simpa [Instr.wellFormed] using hwf)).2
  | rePrefixDd x | rePrefixFd x => cases x <;> rfl
  | cbPrefix | ddPrefix | edPrefix | fdPrefix | ddcbPrefix | fdcbPrefix | edAfterDd | edAfterFd => rfl
  | _ => exact decode_encode_last rest hwf rfl

/-- Settles O3: what a page reads at a byte is one of its rows, at its own bytes (`decode_reads`). -/
theorem decodedRowHasTheseBytes : Obligations.DecodedRowHasTheseBytes := by
  intro pg bs i h
  match bs with
  | [] => exact nomatch h
  | op :: bs => exact (decode_reads pg op bs).row h

/-- Settles O4: no reading takes more than two bytes after the first (`Reads`). -/
theorem everyByteIsAnInstruction : Obligations.EveryByteIsAnInstruction := fun pg b c d => (decode_reads pg b [c, d]).exists_ok

/-- Settles O5, by running the decoder on the eight words. -/
theorem sampleWordsDecode : Obligations.SampleWordsDecode := by
  unfold Obligations.SampleWordsDecode
  decide

/-! ### The rows of a whole instruction -/

theorem decodeRows_last {n : Nat} {pg : Page} {bs : List Byte} {i : Instr} (hd : decode pg bs = .ok i) (hs : i.selects = none) :
    decodeRows (n + 1) pg bs = .ok [i] := by
  simp only [decodeRows, hd, hs]

theorem decodeRows_prefix_byte {n : Nat} {pg pg' : Page} {v : Byte} {bs : List Byte} {p : Instr} {is : List Instr}
    (hd : decode pg (v :: bs) = .ok p) (hs : p.selects = some pg') (hsize : p.size = 1) (hr : decodeRows n pg' bs = .ok is) :
    decodeRows (n + 1) pg (v :: bs) = .ok (p :: is) := by
  simp only [decodeRows, hd, hs, hsize, List.drop_one, List.tail_cons, hr]

/-- The bytes that lead to a page are read as the prefix rows that lead to it (R152, R153). -/
theorem decodeRows_leadIn {pg : Page} {bs : List Byte} {is : List Instr} (h : ∀ n, decodeRows (n + 1) pg bs = .ok is) :
    decodeRows 3 .base (pg.leadIn ++ bs) = .ok (pg.leadRows ++ is) := by
  cases pg with
  | base => exact h 2
  | cb | ed | dd | fd => exact decodeRows_prefix_byte rfl rfl rfl (h 1)
  | ddcb | fdcb => exact decodeRows_prefix_byte rfl rfl rfl (decodeRows_prefix_byte rfl rfl rfl (h 0))

/-- Settles O2: the prefix rows of the page (`decodeRows_leadIn`), then the row (`decode_encode_last`). -/
theorem decodeOfWholeEncoding : Obligations.DecodeOfWholeEncoding := by
  intro i rest hwf hs
  rw [encodeFull, List.append_assoc]
  exact decodeRows_leadIn fun _ => decodeRows_last (decode_encode_last rest hwf hs) hs

end Sys2Proof

namespace Sys2Proof.Machine

/-- Settles O11, by `step_of_bytesAt`. -/
theorem stepRunsInstruction : Obligations.StepRunsInstruction := fun _ _ hs hwf hi h => step_of_bytesAt hs hwf hi h

/-- Settles O52: a prefix row is one fetch (`State.opFetch_ran`), and an ignored prefix adds nothing to its own. -/
theorem prefixRows : Obligations.PrefixRows := by
  intro s
  have hfetch : (.next s.opFetch : Result) = .next (s.ran 1 [s.cFetch s.pc]) := next_congr s.opFetch_ran
  exact ⟨hfetch, hfetch, hfetch, hfetch, hfetch, hfetch, hfetch, hfetch, fun _ => ⟨hfetch, hfetch⟩,
    fun _ => ⟨rfl, rfl⟩⟩

end Sys2Proof.Machine
end

section
/-! SUPPORT. The base page's loads, stack and exchanges (spec/40_base_load.md) in the form the result statements have: the shared
operations of these rows after the opcode fetch, each one list of cycles. -/

namespace Sys2Proof.Machine

/-! ### What follows the fetch -/

theorem State.opFetch_operand (s : State) : s.opFetch.operand = s.ran 2 [s.cFetch s.pc, s.cRead 1 (s.pc + 1)] := by
  rw [State.opFetch_ran, State.ran_operand]
  rfl

/-- Storing a word after the cycles of a row: low byte first (R108). -/
theorem State.ran_writeWordAt (s : State) (n : Word) (cs : List Cycle) (a w : Word) :
    (s.ran n cs).writeWordAt a w = { s.ran n (cs ++ [cWrite a (lo8 w), cWrite (a + 1) (hi8 w)]) with
      mem := (s.mem.write a.toNat (lo8 w)).write (a + 1).toNat (hi8 w) } := by
  apply State.ext_clock <;> simp

/-- Reading a word after the cycles of a row. -/
theorem State.ran_readWordAt (s : State) (n : Word) (cs : List Cycle) (a : Word) :
    (s.ran n cs).readWordAt a = s.ran n (cs ++ [s.cRead (answers cs) a, s.cRead (answers cs + 1) (a + 1)]) := by
  rw [State.readWordAt_through, State.ran_through, State.ran_cRead, State.ran_cRead, Nat.add_zero]

/-- A pop is the read of a word at SP, and SP + 2 (R211). -/
theorem State.pop_eq (s : State) : s.pop = { s.readWordAt s.sp with sp := s.sp + 2 } := by
  apply State.ext_clock <;> simp [BitVec.add_assoc]

/-! ### The shared rows -/

/-- `LD rp,(nn)` after its fetch, whatever register takes the word (R214, R464, R577). -/
theorem State.opFetch_loadWord (s : State) (nn : Word) (put : State → Word → State) :
    s.opFetch.loadWord nn put = put
      { s.ran 3 [s.cFetch s.pc, s.cRead 1 (s.pc + 1), s.cRead 2 (s.pc + 2), s.cRead 3 nn, s.cRead 4 (nn + 1)] with wz := nn + 1 }
      (cat (s.reply 4 (nn + 1)) (s.reply 3 nn)) := by
  rw [State.loadWord, State.opFetch_operand_operand, State.ran_readWordAt, State.ran_wordAt]
  rfl

/-- `LD (nn),rp` after its fetch (R215, R465, R578). -/
theorem State.opFetch_storeWord (s : State) (nn w : Word) :
    s.opFetch.storeWord nn w =
      { s.ran 3 [s.cFetch s.pc, s.cRead 1 (s.pc + 1), s.cRead 2 (s.pc + 2), cWrite nn (lo8 w), cWrite (nn + 1) (hi8 w)] with
        mem := (s.mem.write nn.toNat (lo8 w)).write (nn + 1).toNat (hi8 w), wz := nn + 1 } := by
  rw [State.storeWord, State.opFetch_operand_operand, State.ran_writeWordAt]
  rfl

/-- `PUSH` after its fetch: one idle tick at the IR the fetch has counted (R216, R584). -/
theorem State.opFetch_pushPair (s : State) (w : Word) :
    s.opFetch.pushPair w =
      { s.ran 1 (s.cFetch s.pc :: cIdle (countedIr s.ir) 1 ++ [cWrite (s.sp - 1) (hi8 w), cWrite (s.sp - 2) (lo8 w)]) with
        sp := s.sp - 2, mem := (s.mem.write (s.sp - 1).toNat (hi8 w)).write (s.sp - 2).toNat (lo8 w) } := by
  rw [State.pushPair, State.opFetch_ran, State.ran_internal, State.ran_push]
  rfl

/-- `POP` after its fetch (R217, R585). -/
theorem State.opFetch_pop (s : State) :
    s.opFetch.pop = { s.ran 1 [s.cFetch s.pc, s.cRead 1 s.sp, s.cRead 2 (s.sp + 1)] with sp := s.sp + 2 } := by
  rw [State.pop_eq, State.opFetch_ran, State.ran_readWordAt]
  rfl

/-- `LD SP` after its fetch: two idle ticks at the IR the fetch has counted (R213, R587). -/
theorem State.opFetch_loadSp (s : State) (w : Word) :
    s.opFetch.loadSp w = { s.ran 1 (s.cFetch s.pc :: cIdle (countedIr s.ir) 2) with sp := w } := by
  rw [State.loadSp, State.opFetch_ran, State.ran_internal]
  rfl

/-- `EX (SP)` after its fetch: both reads, an idle tick, both writes, two idle ticks (R232, R583). -/
theorem State.opFetch_exchangeTop (s : State) (w : Word) :
    s.opFetch.exchangeTop w =
      { s.ran 1 (s.cFetch s.pc :: s.cRead 1 s.sp :: s.cRead 2 (s.sp + 1) :: cIdle (s.sp + 1) 1
          ++ [cWrite (s.sp + 1) (hi8 w), cWrite s.sp (lo8 w)] ++ cIdle s.sp 2) with
        mem := (s.mem.write (s.sp + 1).toNat (hi8 w)).write s.sp.toNat (lo8 w) } := by
  rw [State.opFetch_ran]
  apply State.ext_clock <;> simp

/-- The word the two answers after a fetch make. -/
theorem State.opFetch_wordAt (s : State) (a : Word) :
    s.opFetch.wordAt a = cat (s.reply 2 (a + 1)) (s.reply 1 a) := by
  simp [State.wordAt]

/-! ### The rows -/

/-- Settles O29: each row is `State.ran` after its fetches, and the read of its operand joins those cycles. -/
theorem byteLoads : Obligations.ByteLoads := by
  intro s
  refine ⟨fun r r' => ?_, fun r n => ?_, fun r => ?_, fun p => ?_, fun nn => ?_⟩
  · simp only [exec, execLdRR, State.opFetch_ran, State.ran_reg]
  · simp only [exec, execLdRN, State.opFetch_operand]
  · simp only [exec, execLdRIndHl, State.opFetch_ran, State.ran_readAt, State.ran_byteAt]
    rfl
  · simp only [exec, execLdAIndRp, State.opFetch_ran, State.ran_bcDe, State.ran_readAt, State.ran_byteAt]
    rfl
  · simp only [exec, execLdAIndNn, State.opFetch_operand_operand, State.ran_readAt, State.ran_byteAt]
    rfl

/-- Settles O30: each row is `State.ran` after its fetches, and the write joins those cycles. -/
theorem byteStores : Obligations.ByteStores := by
  intro s
  refine ⟨fun p => ?_, fun nn => ?_, fun r => ?_, fun n => ?_⟩
  · simp only [exec, execLdIndRpA, State.opFetch_ran, State.ran_bcDe, State.ran_writeAt]
    rfl
  · simp only [exec, execLdIndNnA, State.opFetch_operand_operand, State.ran_writeAt]
    rfl
  · simp only [exec, execLdIndHlR, State.opFetch_ran, State.ran_reg, State.ran_writeAt]
    rfl
  · simp only [exec, execLdIndHlN, State.opFetch_operand, State.ran_writeAt]
    rfl

/-- Settles O31: the memory forms are `State.opFetch_loadWord` and `State.opFetch_storeWord`, on both pages. -/
theorem wordLoadsAndStores : Obligations.WordLoadsAndStores := by
  intro s
  refine ⟨fun p nn => ?_, next_congr (s.opFetch_loadSp s.hl), fun nn => next_congr (s.opFetch_loadWord nn _),
    fun nn => next_congr (s.opFetch_storeWord nn s.hl), fun p nn => next_congr (s.opFetch_loadWord nn _),
    fun p nn => next_congr (s.opFetch_storeWord nn (s.rp p))⟩
  simp only [exec, execLdRpNn, State.opFetch_operand_operand]

/-- Settles O32: `State.opFetch_pushPair`, and `State.opFetch_pop` with the word it reads. -/
theorem pushAndPop : Obligations.PushAndPop := by
  intro s p
  refine ⟨next_congr (s.opFetch_pushPair (s.rp2 p)), ?_⟩
  simp only [exec, execPopRp2, State.opFetch_pop, State.opFetch_wordAt, State.opFetch_sp]

/-- Settles O33: the register exchanges are one fetch (`State.opFetch_ran`) and the swap, EX (SP),HL is
`State.opFetch_exchangeTop`. -/
theorem exchanges : Obligations.Exchanges := by
  intro s
  refine ⟨?_, ?_, ?_, ?_⟩
  · simp only [exec, execExAfAf, State.opFetch_ran]
  · simp only [exec, execExx, State.opFetch_ran]
  · simp only [exec, execExDeHl, State.opFetch_ran]
  · simp only [exec, execExIndSpHl, State.opFetch_exchangeTop, State.opFetch_wordAt, State.opFetch_sp, State.opFetch_hl]

end Sys2Proof.Machine
end

section
/-! SUPPORT. Addition and subtraction with a carry at any width (spec/10_state.md R70): the sum as a number, the carry into each bit,
and signed overflow. A subtraction `a - b - c = r` is the addition `r + b + c = a`. -/

namespace Sys2Proof

variable {w : Nat}

/-! ### The result as a number -/

theorem add_no_carry (a : BitVec w) : a + (if false then 1 else 0) = a := BitVec.add_zero a
theorem sub_no_borrow (a : BitVec w) : a - (if false then 1 else 0) = a := BitVec.sub_zero a

theorem ofNat_add_carry (a b : BitVec w) (c : Bool) :
    BitVec.ofNat w (a.toNat + b.toNat + c.toNat) = a + b + (if c then 1 else 0) := by
  cases c <;> simp [BitVec.ofNat_add]

theorem sub_add_carry_cancel (a b : BitVec w) (c : Bool) :
    a - b - (if c then 1 else 0) + b + (if c then 1 else 0) = a := by
  rw [BitVec.add_assoc, BitVec.add_comm b, ← BitVec.add_assoc, BitVec.sub_add_cancel, BitVec.sub_add_cancel]

theorem ofInt_sub_borrow (a b : BitVec w) (c : Bool) :
    BitVec.ofInt w ((a.toNat : Int) - b.toNat - c.toNat) = a - b - (if c then 1 else 0) := by
  have hc : BitVec.ofInt w c.toNat = if c then 1 else 0 := by cases c <;> simp
  have hv (v : BitVec w) : BitVec.ofInt w v.toNat = v := by simp
  rw [BitVec.eq_sub_iff_add_eq, BitVec.eq_sub_iff_add_eq, ← hc]
  nth_rw 2 [← hv b]
  rw [← BitVec.ofInt_add, ← BitVec.ofInt_add, Int.sub_add_cancel, Int.sub_add_cancel, hv]

theorem toNat_add_carry (a b : BitVec w) (c : Bool) :
    (a + b + (if c then 1 else 0)).toNat = (a.toNat + b.toNat + c.toNat) % 2 ^ w := by
  rw [← ofNat_add_carry, BitVec.toNat_ofNat]

theorem toNat_sub_borrow (a b : BitVec w) (c : Bool) :
    ((a - b - (if c then 1 else 0)).toNat : Int) = ((a.toNat : Int) - b.toNat - c.toNat) % 2 ^ w := by
  rw [← ofInt_sub_borrow, BitVec.toNat_ofInt, Int.toNat_of_nonneg (Int.emod_nonneg _ (by positivity))]
  push_cast
  rfl

/-- The sum is exact, or short of it by one carry out. -/
theorem toNat_add_carry_cases (a b : BitVec w) (c : Bool) :
    let r := a + b + (if c then 1 else 0)
    r.toNat = a.toNat + b.toNat + c.toNat ∨ r.toNat + 2 ^ w = a.toNat + b.toNat + c.toNat := by
  intro r
  have hr : r.toNat = (a.toNat + b.toNat + c.toNat) % 2 ^ w := toNat_add_carry a b c
  have hc := c.toNat_le
  have ha := a.isLt
  have hb := b.isLt
  by_cases h : a.toNat + b.toNat + c.toNat < 2 ^ w
  · rw [Nat.mod_eq_of_lt h] at hr
    exact .inl hr
  · rw [Nat.mod_eq_sub_mod (by omega), Nat.mod_eq_of_lt (by omega)] at hr
    omega

/-! ### The carry into a bit -/

/-- The exclusive or of the operands and the sum is the carry into each bit. -/
theorem getLsbD_xor_add_eq_carry (a b : BitVec w) (c : Bool) {i : Nat} (hi : i < w) :
    (a ^^^ b ^^^ (a + b + (if c then 1 else 0))).getLsbD i
      = decide (2 ^ i ≤ a.toNat % 2 ^ i + b.toNat % 2 ^ i + c.toNat) := by
  simp only [ite_one_eq_setWidth, BitVec.getLsbD_xor, BitVec.getLsbD_add_add_bool hi, BitVec.carry]
  cases a.getLsbD i <;> cases b.getLsbD i <;> simp

/-- Likewise the borrow into each bit: the carry of the addition that restores the first operand. -/
theorem getLsbD_xor_sub_eq_borrow (a b : BitVec w) (c : Bool) {i : Nat} (hi : i < w) :
    (a ^^^ b ^^^ (a - b - (if c then 1 else 0))).getLsbD i
      = decide (a.toNat % 2 ^ i < b.toNat % 2 ^ i + c.toNat) := by
  generalize hd : a - b - (if c then 1 else 0) = r
  have ha : r + b + (if c then 1 else 0) = a := hd ▸ sub_add_carry_cancel a b c
  have hcarry := getLsbD_xor_add_eq_carry r b c hi
  have hlow := toNat_add_carry_cases (r.setWidth i) (b.setWidth i) c
  have hwidth : r.setWidth i + b.setWidth i + (if c then 1 else 0) = a.setWidth i := by
    rw [← ha]
    cases c <;> simp [BitVec.setWidth_add, hi.le]
  rw [ha] at hcarry
  simp only [hwidth, BitVec.toNat_setWidth] at hlow
  have hrlt := Nat.mod_lt r.toNat (Nat.two_pow_pos i)
  have halt := Nat.mod_lt a.toNat (Nat.two_pow_pos i)
  rw [BitVec.xor_comm (a ^^^ b), BitVec.xor_comm a b, ← BitVec.xor_assoc, hcarry, decide_eq_decide]
  omega

/-! ### Signed overflow -/

/-- The top bit of a word, its value as a number and its value as a signed number. -/
theorem signed_cases {n : Nat} (a : BitVec (n + 1)) :
    a.getLsbD n = false ∧ a.toNat < 2 ^ n ∧ a.toInt = a.toNat
      ∨ a.getLsbD n = true ∧ 2 ^ n ≤ a.toNat ∧ a.toNat < 2 * 2 ^ n ∧ a.toInt = (a.toNat : Int) - 2 * 2 ^ n := by
  have hlt := a.isLt
  have hmsb := a.msb_eq_decide
  rw [BitVec.msb_eq_getLsbD_last, Nat.add_sub_cancel] at hmsb
  rw [BitVec.toInt_eq_toNat_cond, hmsb, decide_eq_false_iff_not, decide_eq_true_iff]
  rw [pow_succ'] at hlt ⊢
  push_cast
  split
  case isTrue h => exact .inl ⟨by omega, by omega, rfl⟩
  case isFalse h => exact .inr ⟨by omega, by omega, hlt, rfl⟩

/-- Sign by sign: two operands of one sign and a sum of the other, or the sum is exact. -/
theorem overflow_add_carry {n : Nat} (a b : BitVec (n + 1)) (c : Bool) :
    let r := a + b + (if c then 1 else 0)
    (a.getLsbD n == b.getLsbD n && r.getLsbD n != a.getLsbD n)
      = decide (a.toInt + b.toInt + c.toNat < -2 ^ n ∨ 2 ^ n ≤ a.toInt + b.toInt + c.toNat) := by
  intro r
  have hsum : r.toNat = _ ∨ r.toNat + 2 ^ (n + 1) = _ := toNat_add_carry_cases a b c
  have hc := c.toNat_le
  have ha := signed_cases a
  have hb := signed_cases b
  have hr := signed_cases r
  have hcast : (2 : Int) ^ n = (2 ^ n : Nat) := by push_cast; rfl
  -- each combination of the three signs is linear in 2 ^ n
  grind

/-- Likewise for operands of two signs. -/
theorem overflow_sub_borrow {n : Nat} (a b : BitVec (n + 1)) (c : Bool) :
    let r := a - b - (if c then 1 else 0)
    (a.getLsbD n != b.getLsbD n && r.getLsbD n != a.getLsbD n)
      = decide (a.toInt - b.toInt - c.toNat < -2 ^ n ∨ 2 ^ n ≤ a.toInt - b.toInt - c.toNat) := by
  intro r
  have hsum := toNat_add_carry_cases r b c
  simp only [r, sub_add_carry_cancel] at hsum
  have hc := c.toNat_le
  have ha := signed_cases a
  have hb := signed_cases b
  have hr := signed_cases r
  have hcast : (2 : Int) ^ n = (2 ^ n : Nat) := by push_cast; rfl
  -- each combination of the three signs is linear in 2 ^ n
  grind

end Sys2Proof
end

section
/-! SUPPORT. The flags of the additions and subtractions (spec/41_base_alu.md R261, R262, R271, R272, R274, R290, R462, R463): F as the
eight flags it holds, with H and PV by the formulas of R70, and each of them by exact arithmetic. -/

namespace Sys2Proof

/-! ### F from its flags -/

@[simp] theorem when_true (v : Byte) : when true v = v := rfl
@[simp] theorem when_false (v : Byte) : when false v = 0#8 := rfl

/-- F with S, 5 and 3 taken from x and the other flags given (R58). -/
def flagByte (x : Byte) (z h pv n c : Bool) : Byte :=
  (x &&& 0xA8) ||| when z flagZ ||| when h flagH ||| when pv flagPV ||| when n flagN ||| when c flagC

theorem bit_flagByte (x : Byte) (z h pv n c : Bool) :
    let f := flagByte x z h pv n c
    bit f 0 = c ∧ bit f 1 = n ∧ bit f 2 = pv ∧ bit f 3 = bit x 3 ∧ bit f 4 = h ∧ bit f 5 = bit x 5 ∧ bit f 6 = z
      ∧ bit f 7 = bit x 7 := by
  simp only [flagByte, bit_or, bit_and, bit_when]
  simp [bit, flagC, flagN, flagPV, flagH, flagZ]

theorem and_flagC (f : Byte) : f &&& flagC = when (carryOf f) flagC := BitVec.and_twoPow f 0

/-- Putting another carry into F. -/
theorem flagByte_with_carry (x f : Byte) (z h pv n c : Bool) :
    (flagByte x z h pv n c &&& 0xFE) ||| (f &&& flagC) = flagByte x z h pv n (carryOf f) := by
  rw [and_flagC]
  simp [flagByte, BitVec.and_or_distrib_right, BitVec.and_assoc, when_and, flagC, flagN, flagPV, flagH, flagZ]

theorem bit_hi8 (w : Word) {k : Nat} (hk : k < 8) : bit (hi8 w) k = w.getLsbD (8 + k) := by
  simp [bit, hi8, hk]

/-! ### 8 bits -/

theorem add8_eq (a b : Byte) (c : Bool) :
    let r := a + b + (if c then 1 else 0)
    add8 a b c = (r, flagByte r (r == 0) (bit (a ^^^ b ^^^ r) 4) (bit a 7 == bit b 7 && bit r 7 != bit a 7) false
      (decide (255 < a.toNat + b.toNat + c.toNat))) := by
  obtain ⟨hH, hPV⟩ := halfCarryAndOverflowFormulas.1 a b c
  simp only [add8, ofNat_add_carry, hH, hPV]
  simp only [flagByte, sz53, when_false, BitVec.or_zero]
  rfl

theorem subRes_eq (a b : Byte) (c : Bool) : subRes a b c = a - b - (if c then 1 else 0) := ofInt_sub_borrow a b c

/-- The flags of a subtraction that its result does not give. -/
theorem subNHVC_eq (a b : Byte) (c : Bool) :
    let r := a - b - (if c then 1 else 0)
    subNHVC a b c = when (bit (a ^^^ b ^^^ r) 4) flagH ||| when (bit a 7 != bit b 7 && bit r 7 != bit a 7) flagPV ||| flagN
      ||| when (decide (a.toNat < b.toNat + c.toNat)) flagC := by
  obtain ⟨hH, hPV⟩ := halfCarryAndOverflowFormulas.2.1 a b c
  have hC : (a.toNat : Int) - b.toNat - c.toNat < 0 ↔ a.toNat < b.toNat + c.toNat := by omega
  simp only [subNHVC, subRes_eq, hH, hPV, hC]
  ac_rfl

theorem sub8_eq (a b : Byte) (c : Bool) :
    let r := a - b - (if c then 1 else 0)
    sub8 a b c = (r, flagByte r (r == 0) (bit (a ^^^ b ^^^ r) 4) (bit a 7 != bit b 7 && bit r 7 != bit a 7) true
      (decide (a.toNat < b.toNat + c.toNat))) := by
  simp only [sub8, subRes_eq, subNHVC_eq, flagByte, sz53, when_true]
  ac_rfl


/-- A compare has the flags of a subtraction but for 5 and 3 (R271). -/
theorem cp8_eq_sub8 (a b : Byte) : cp8 a b = ((sub8 a b false).2 &&& ~~~flag53) ||| (b &&& flag53) := by
  simp [cp8, sub8, subNHVC_eq, sz53, BitVec.and_or_distrib_right, BitVec.and_assoc, when_and, flagC, flagN, flagPV, flagH,
    flagZ, flag53]

/-- Settles O24: the flags are those of `add8_eq`, with H the carry into bit 4 and PV signed overflow of the sum. -/
theorem addFlagsByArithmetic : Obligations.AddFlagsByArithmetic := by
  intro a b c
  rw [add8_eq]
  obtain ⟨h0, h1, h2, h3, h4, h5, h6, h7⟩ := bit_flagByte _ _ _ _ _ _
  exact ⟨toNat_add_carry a b c, h0, h1, h2.trans (overflow_add_carry a b c), h3,
    h4.trans (getLsbD_xor_add_eq_carry a b c (by decide)), h5, h6, h7⟩

/-- Settles O25: the flags are those of `sub8_eq`, with H the borrow into bit 4 and PV signed overflow of the difference. -/
theorem subFlagsByArithmetic : Obligations.SubFlagsByArithmetic := by
  intro a b c
  rw [sub8_eq]
  obtain ⟨h0, h1, h2, h3, h4, h5, h6, h7⟩ := bit_flagByte _ _ _ _ _ _
  exact ⟨toNat_sub_borrow a b c, h0, h1, h2.trans (overflow_sub_borrow a b c), h3,
    h4.trans (getLsbD_xor_sub_eq_borrow a b c (by decide)), h5, h6, h7, cp8_eq_sub8 a b⟩

/-! ### INC and DEC -/

theorem incFlags_eq (v f : Byte) :
    incFlags v f = flagByte (v + 1) (v + 1 == 0) (v &&& 0x0F == 0x0F) (v == 0x7F) false (carryOf f) := by
  rw [incFlags, and_flagC]
  simp only [flagByte, sz53, when_false, BitVec.or_zero]
  ac_rfl

theorem decFlags_eq (v f : Byte) :
    decFlags v f = flagByte (v - 1) (v - 1 == 0) (v &&& 0x0F == 0x00) (v == 0x80) true (carryOf f) := by
  rw [decFlags, and_flagC]
  simp only [flagByte, sz53, when_true]
  ac_rfl

/-- Settles O27: H of adding or subtracting 1 is seen in the low four bits, PV in the one value next to the end of the range. -/
theorem incDecFlagsAreAddSubOfOne : Obligations.IncDecFlagsAreAddSubOfOne := by
  intro v f
  have hinc : (v &&& 0x0F == 0x0F) = bit (v ^^^ 1 ^^^ (v + 1)) 4
      ∧ (v == 0x7F) = (bit v 7 == bit 1 7 && bit (v + 1) 7 != bit v 7) := by decide +revert
  have hdec : (v &&& 0x0F == 0x00) = bit (v ^^^ 1 ^^^ (v - 1)) 4
      ∧ (v == 0x80) = (bit v 7 != bit 1 7 && bit (v - 1) 7 != bit v 7) := by decide +revert
  constructor
  · rw [incFlags_eq, hinc.1, hinc.2, add8_eq, add_no_carry]
    exact (flagByte_with_carry _ _ _ _ _ _ _).symm
  · rw [decFlags_eq, hdec.1, hdec.2, sub8_eq, sub_no_borrow]
    exact (flagByte_with_carry _ _ _ _ _ _ _).symm

/-! ### 16 bits -/

theorem adc16_eq (a b : Word) (f : Byte) :
    let c := carryOf f
    let r := a + b + (if c then 1 else 0)
    adc16 a b f = (r, flagByte (hi8 r) (r == 0) ((a ^^^ b ^^^ r).getLsbD 12)
      (a.getLsbD 15 == b.getLsbD 15 && r.getLsbD 15 != a.getLsbD 15) false
      (decide (65535 < a.toNat + b.toNat + c.toNat))) := by
  obtain ⟨hH, hPV⟩ := halfCarryAndOverflowFormulas.2.2.1 a b (carryOf f)
  simp only [adc16, ofNat_add_carry, hH, hPV, flagByte, when_false, BitVec.or_zero]
  rfl

theorem sbc16_eq (a b : Word) (f : Byte) :
    let c := carryOf f
    let r := a - b - (if c then 1 else 0)
    sbc16 a b f = (r, flagByte (hi8 r) (r == 0) ((a ^^^ b ^^^ r).getLsbD 12)
      (a.getLsbD 15 != b.getLsbD 15 && r.getLsbD 15 != a.getLsbD 15) true
      (decide (a.toNat < b.toNat + c.toNat))) := by
  obtain ⟨hH, hPV⟩ := halfCarryAndOverflowFormulas.2.2.2 a b (carryOf f)
  have hC : (a.toNat : Int) - b.toNat - (carryOf f).toNat < 0 ↔ a.toNat < b.toNat + (carryOf f).toNat := by omega
  simp only [sbc16, ofInt_sub_borrow, hH, hPV, hC, flagByte, when_true]
  rfl

theorem add16_eq (a b : Word) (f : Byte) :
    add16 a b f = (a + b, (f &&& 0xC4) ||| (hi8 (a + b) &&& flag53) ||| when ((a ^^^ b ^^^ (a + b)).getLsbD 12) flagH
      ||| when (decide (65535 < a.toNat + b.toNat)) flagC) := by
  have hH := (halfCarryAndOverflowFormulas.2.2.1 a b false).1
  have hr : BitVec.ofNat 16 (a.toNat + b.toNat) = a + b := (ofNat_add_carry a b false).trans (add_no_carry _)
  rw [add_no_carry] at hH
  simp only [add16, hr, hH]
  rfl

/-- The bits of F after ADD HL,rp, from the F before, the high byte of the sum, H and C. -/
theorem bit_add16_flags (f x : Byte) (h c : Bool) :
    let g := (f &&& 0xC4) ||| (x &&& flag53) ||| when h flagH ||| when c flagC
    bit g 0 = c ∧ bit g 1 = false ∧ bit g 3 = bit x 3 ∧ bit g 4 = h ∧ bit g 5 = bit x 5 ∧ bit g 2 = bit f 2
      ∧ bit g 6 = bit f 6 ∧ bit g 7 = bit f 7 := by
  simp only [bit_or, bit_and, bit_when]
  simp [bit, flagC, flagH, flag53]

/-- Settles O26: the flags are those of `add16_eq`, `adc16_eq` and `sbc16_eq`, with H the carry or borrow into bit 12 and PV signed
overflow. -/
theorem wordFlagsByArithmetic : Obligations.WordFlagsByArithmetic := by
  refine ⟨fun a b f => ?_, fun a b f => ?_, fun a b f => ?_⟩
  · rw [add16_eq]
    obtain ⟨h0, h1, h3, h4, h5, hkept⟩ := bit_add16_flags f (hi8 (a + b)) _ _
    have hH := getLsbD_xor_add_eq_carry a b false (i := 12) (by decide)
    rw [add_no_carry] at hH
    exact ⟨BitVec.toNat_add a b, h0, h1, h3.trans (bit_hi8 _ (by decide)), h4.trans hH, h5.trans (bit_hi8 _ (by decide)), hkept⟩
  · rw [adc16_eq]
    obtain ⟨h0, h1, h2, h3, h4, h5, h6, h7⟩ := bit_flagByte _ _ _ _ _ _
    exact ⟨toNat_add_carry a b _, h0, h1, h2.trans (overflow_add_carry a b _), h3.trans (bit_hi8 _ (by decide)),
      h4.trans (getLsbD_xor_add_eq_carry a b _ (by decide)), h5.trans (bit_hi8 _ (by decide)), h6,
      h7.trans (bit_hi8 _ (by decide))⟩
  · rw [sbc16_eq]
    obtain ⟨h0, h1, h2, h3, h4, h5, h6, h7⟩ := bit_flagByte _ _ _ _ _ _
    exact ⟨toNat_sub_borrow a b _, h0, h1, h2.trans (overflow_sub_borrow a b _), h3.trans (bit_hi8 _ (by decide)),
      h4.trans (getLsbD_xor_sub_eq_borrow a b _ (by decide)), h5.trans (bit_hi8 _ (by decide)), h6,
      h7.trans (bit_hi8 _ (by decide))⟩

end Sys2Proof
end

section
/-! SUPPORT. The base page's arithmetic and logic (spec/41_base_alu.md) in the form the result statements have: the new A and F as
their rules spell them out, and the shared operations of these rows after the opcode fetch, each one list of cycles. -/

namespace Sys2Proof

/-! ### A and F as the rules spell them out -/

/-- The flags of an addition, as a union of single flags (R261). -/
theorem add8_flags (a v : Byte) (c : Bool) :
    let r := a + v + (if c then 1 else 0)
    add8 a v c = (r, sz53 r ||| (if bit (a ^^^ v ^^^ r) 4 then 0x10 else 0)
      ||| (if bit a 7 = bit v 7 ∧ bit r 7 ≠ bit a 7 then 0x04 else 0)
      ||| (if 255 < a.toNat + v.toNat + c.toNat then 0x01 else 0)) := by
  rw [add8_eq]
  simp [flagByte, sz53, when, flagC, flagPV, flagH]

/-- The flags of a subtraction that its result does not give (R262). -/
theorem subNHVC_flags (a v : Byte) (c : Bool) :
    let r := a - v - (if c then 1 else 0)
    subNHVC a v c = (if bit (a ^^^ v ^^^ r) 4 then 0x10 else 0) ||| (if bit a 7 ≠ bit v 7 ∧ bit r 7 ≠ bit a 7 then 0x04 else 0)
      ||| 0x02 ||| (if a.toNat < v.toNat + c.toNat then 0x01 else 0) := by
  rw [subNHVC_eq]
  simp [when, flagC, flagPV, flagH, flagN]

/-- DAA with the low digit as a number (R276). -/
theorem daa_eq (a f : Byte) :
    let c := bit f 0 || decide (0x99 < a.toNat)
    let lo := a.toNat % 16
    let d : Byte := (if c then 0x60 else 0) ||| (if bit f 4 || decide (9 < lo) then 0x06 else 0)
    let a' : Byte := if bit f 1 then a - d else a + d
    let h := if bit f 1 then bit f 4 && decide (lo < 6) else decide (9 < lo)
    daa a f = (a', sz53p a' ||| (if h then 0x10 else 0) ||| (f &&& 0x02) ||| (if c then 0x01 else 0)) := by
  have hlo : (a &&& 0x0F).toNat = a.toNat % 16 := Nat.and_two_pow_sub_one_eq_mod a.toNat 4
  simp only [daa, hlo]
  rfl

/-- H and N are set together (R277). -/
theorem cplFlags_eq (a f : Byte) : cplFlags a f = (f &&& 0xC5) ||| 0x12 ||| (a &&& 0x28) :=
  congrArg (· ||| (a &&& 0x28)) (BitVec.or_assoc (f &&& 0xC5) flagH flagN)

/-- The carry goes to H and is complemented (R279). -/
theorem ccfFlags_eq (a f : Byte) :
    ccfFlags a f = (f &&& 0xC4) ||| (a &&& 0x28) ||| (if bit f 0 then 0x10 else 0x01) := by
  have hHC (c : Bool) : when c flagH ||| when (!c) flagC = if c then 0x10 else 0x01 := by cases c <;> rfl
  rw [ccfFlags, BitVec.or_assoc (f &&& 0xC4), carryOf, hHC, BitVec.or_assoc, BitVec.or_comm (ite _ _ _), ← BitVec.or_assoc]
  rfl

namespace Machine

/-! ### What follows the fetch -/

/-- The read-modify-write of a byte after the cycles of a row (R400). -/
theorem State.ran_modifyAt (s : State) (n : Word) (cs : List Cycle) (a : Word) (g : Byte → Byte) :
    (s.ran n cs).modifyAt a g =
      { s.ran n (cs ++ s.cRead (answers cs) a :: cIdle a 1 ++ [cWrite a (g (s.reply (answers cs) a))]) with
        mem := s.mem.write a.toNat (g (s.reply (answers cs) a)) } := by
  apply State.ext_clock <;> simp [Nat.add_assoc]

theorem State.opFetch_incMem (s : State) (a : Word) :
    let v := s.reply 1 a
    s.opFetch.incMem a =
      { s.ran 1 (s.cFetch s.pc :: s.cRead 1 a :: cIdle a 1 ++ [cWrite a (v + 1)]) with
        mem := s.mem.write a.toNat (v + 1) }.setF (incFlags v s.f) := by
  rw [State.opFetch_ran, State.incMem, State.ran_modifyAt, State.ran_byteAt]
  rfl

theorem State.opFetch_decMem (s : State) (a : Word) :
    let v := s.reply 1 a
    s.opFetch.decMem a =
      { s.ran 1 (s.cFetch s.pc :: s.cRead 1 a :: cIdle a 1 ++ [cWrite a (v - 1)]) with
        mem := s.mem.write a.toNat (v - 1) }.setF (decFlags v s.f) := by
  rw [State.opFetch_ran, State.decMem, State.ran_modifyAt, State.ran_byteAt]
  rfl

/-- ADD to a pair after its fetch: seven idle ticks at the IR the fetch has counted (R290, R580). -/
theorem State.opFetch_addPair (s : State) (w v : Word) :
    s.opFetch.addPair w v =
      { (s.ran 1 (s.cFetch s.pc :: cIdle (countedIr s.ir) 7)).setF (add16 w v s.f).2 with wz := w + 1 } := by
  rw [State.opFetch_ran, State.addPair, State.ran_internal]
  rfl

theorem State.rotA_ran (s : State) (o : RotOp) :
    let a := rotRes o (bit s.f 0) s.a
    s.rotA o = (s.ran 1 [s.cFetch s.pc]).setAF
      (a, (s.f &&& 0xC4) ||| (a &&& 0x28) ||| (if rotOut o s.a then 0x01 else 0)) := rfl

/-! ### The rows -/

theorem exec_onR (o : AluOp) (r : Reg8) (s : State) : exec (o.onR r) s = .next (s.aluReg o r) := by cases o <;> rfl
theorem exec_onIndHl (o : AluOp) (s : State) : exec o.onIndHl s = .next (s.aluIndHl o) := by cases o <;> rfl
theorem exec_onN (o : AluOp) (n : Byte) (s : State) : exec (o.onN n) s = .next (s.aluImm o n) := by cases o <;> rfl

/-- Settles O35: A and F are those of `add8_flags` and `subNHVC_flags`, and each row is `State.ran` after its fetches. -/
theorem byteArithmeticAndLogic : Obligations.ByteArithmeticAndLogic := by
  refine ⟨fun a f v => ⟨?_, ?_, ?_, ?_, rfl, rfl, rfl, ?_⟩, fun s o => ⟨fun r => ?_, ?_, fun n => ?_⟩⟩
  · rw [aluResult, add8_flags, add_no_carry]
  · exact add8_flags a v (bit f 0)
  · rw [aluResult, sub8, subRes_eq, subNHVC_flags, sub_no_borrow, BitVec.or_comm]
  · rw [aluResult, sub8, subRes_eq, subNHVC_flags, BitVec.or_comm]
    rfl
  · rw [aluResult, cp8, subRes_eq, subNHVC_flags, sub_no_borrow, BitVec.or_assoc, BitVec.or_comm]
    rfl
  · rw [exec_onR, State.aluReg, State.opFetch_ran]
    rfl
  · rw [exec_onIndHl, State.aluIndHl]
    simp only [State.opFetch_ran, State.ran_readAt, State.ran_byteAt]
    rfl
  · rw [exec_onN, State.aluImm, State.opFetch_operand]
    rfl

/-- Settles O36: a register is written after its flags, and the memory forms are `State.opFetch_incMem` and
`State.opFetch_decMem`. -/
theorem byteIncrements : Obligations.ByteIncrements := by
  intro s
  refine ⟨fun r => ?_, fun r => ?_, next_congr (s.opFetch_incMem s.hl), next_congr (s.opFetch_decMem s.hl)⟩
  · simp only [exec, execIncR, State.incBy, State.opFetch_ran, State.ran_f]
  · simp only [exec, execDecR, State.decBy, State.opFetch_ran, State.ran_f]

/-- Settles O37: DAA is `daa_eq`, CCF `ccfFlags_eq`, CPL `cplFlags_eq`, the rotates `State.rotA_ran`, and SCF its own equation. -/
theorem accumulatorAdjustAndRotates : Obligations.AccumulatorAdjustAndRotates := by
  intro s
  refine ⟨?_, ?_, rfl, ?_, next_congr (s.rotA_ran .rlc), next_congr (s.rotA_ran .rrc), next_congr (s.rotA_ran .rl),
    next_congr (s.rotA_ran .rr)⟩
  · simp only [exec, execDaa, daa_eq, State.opFetch_ran]
  · simp only [exec, execCpl, cplFlags_eq, State.opFetch_ran]
  · simp only [exec, execCcf, ccfFlags_eq, State.opFetch_ran]

/-- Settles O38: each row is `State.ran` after its fetch, and the idle ticks join its cycles; ADD is `State.opFetch_addPair`. -/
theorem wordArithmetic : Obligations.WordArithmetic := by
  intro s p
  refine ⟨?_, ?_, ?_, ?_, ?_⟩
  · have hsum : s.hl + s.rp p = (add16 s.hl (s.rp p) s.f).1 := by rw [add16_eq]
    simp only [exec, execAddHlRp, State.opFetch_addPair, hsum]
  · simp only [exec, execAdcHlRp, State.opFetch_ran, State.ran_internal, State.ran_ir, State.ran_hl, State.ran_rp, State.ran_f]
    rfl
  · simp only [exec, execSbcHlRp, State.opFetch_ran, State.ran_internal, State.ran_ir, State.ran_hl, State.ran_rp, State.ran_f]
    rfl
  · simp only [exec, execIncRp, State.opFetch_ran, State.ran_internal, State.ran_ir, State.ran_rp]
    rfl
  · simp only [exec, execDecRp, State.opFetch_ran, State.ran_internal, State.ran_ir, State.ran_rp]
    rfl

end Machine
end Sys2Proof
end

section
/-! SUPPORT. Control transfer and ports (spec/42_base_control.md R330 to R345, R353, R354; spec/44_ed_page.md R450 to R453) in the
form the result statements have: the relative jump after the cycles of a row, and IM and the port flags as their rules spell them
out. -/

namespace Sys2Proof.Machine

/-! ### Interrupt enables and modes -/

/-- The eight codes of IM in order (R162, R459). -/
theorem imOf_eq (y : BitVec 3) :
    imOf y = [IntMode.im0, .im0, .im1, .im2, .im0, .im0, .im1, .im2].getD y.toNat .im0 := by
  revert y
  decide

/-- Settles O39: each row is one fetch (`State.opFetch_ran`) and its own bits; HALT takes back the count of PC, and IM is
`imOf_eq`. -/
theorem controlRows : Obligations.ControlRows := by
  intro s
  have hfetch := s.opFetch_ran
  refine ⟨next_congr hfetch, ?_, ?_, ?_, fun y => ?_⟩
  · simp only [exec, execHalt, hfetch, State.ran_pc, BitVec.add_sub_cancel]
  · simp only [exec, execDi, hfetch]
  · simp only [exec, execEi, hfetch]
  · simp only [exec, execIm, hfetch, imOf_eq]

/-! ### Jumps -/

/-- The taken part of a relative jump after the cycles of a row: five idle ticks at the last byte of the row (R343). -/
theorem State.ran_jumpRel (s : State) (n : Word) (cs : List Cycle) (e : Byte) :
    (s.ran n cs).jumpRel e =
      { s.ran n (cs ++ cIdle (s.pc + n - 1) 5) with pc := s.pc + n + sext16 e, wz := s.pc + n + sext16 e } := by
  rw [State.jumpRel, State.ran_internal]
  rfl

@[simp] theorem State.setB_b (s : State) (v : Byte) : (s.setB v).b = v := by
  simp [State.b, State.setB]

/-- A relative jump neither reads nor writes B, so DJNZ may count before or after it. -/
theorem State.setB_jumpRel (s : State) (v e : Byte) : (s.setB v).jumpRel e = (s.jumpRel e).setB v := by
  simp only [State.jumpRel, State.internal_through]
  rfl

/-- DJNZ up to its condition: one idle tick at the IR the fetch has counted, and the operand (R345). -/
theorem State.opFetch_internal_operand (s : State) :
    (s.opFetch.internal s.opFetch.ir 1).operand
      = s.ran 2 (s.cFetch s.pc :: cIdle (countedIr s.ir) 1 ++ [s.cRead 1 (s.pc + 1)]) := by
  rw [State.opFetch_ran, State.ran_internal, State.ran_operand]
  rfl

/-- Settles O40: an absolute jump writes PC after its fetches, a relative one is `State.ran_jumpRel`, and a conditional one is both
ways of its condition. -/
theorem jumps : Obligations.Jumps := by
  refine ⟨fun _ => rfl, rfl, fun s => ?_⟩
  have hlast : s.pc + 2 - 1 = s.pc + 1 := by bv_omega
  have hjr (e : Byte) : s.opFetch.operand.jumpRel e =
      { s.ran 2 (s.cFetch s.pc :: s.cRead 1 (s.pc + 1) :: cIdle (s.pc + 1) 5) with
        pc := s.pc + 2 + sext16 e, wz := s.pc + 2 + sext16 e } := by
    rw [State.opFetch_operand, State.ran_jumpRel, hlast]
    rfl
  have hdjnz (e : Byte) :
      ((s.ran 2 (s.cFetch s.pc :: cIdle (countedIr s.ir) 1 ++ [s.cRead 1 (s.pc + 1)])).setB (s.b - 1)).jumpRel e =
        { (s.ran 2 (s.cFetch s.pc :: cIdle (countedIr s.ir) 1 ++ s.cRead 1 (s.pc + 1) :: cIdle (s.pc + 1) 5)).setB (s.b - 1) with
          pc := s.pc + 2 + sext16 e, wz := s.pc + 2 + sext16 e } := by
    rw [State.setB_jumpRel, State.ran_jumpRel, hlast]
    rfl
  refine ⟨fun nn => ?_, fun cc nn => ?_, ?_, fun e => next_congr (hjr e), fun cc e => ?_, fun e => ?_⟩
  · simp only [exec, execJpNn, State.opFetch_operand_operand]
    rfl
  · simp only [exec, execJpCcNn, State.opFetch_operand_operand, State.ran_f, State.ran_pc]
  · simp only [exec, execJpIndHl, State.opFetch_ran]
  · simp only [exec, execJrCc, hjr]
    simp only [State.opFetch_operand, State.ran_f]
  · simp only [exec, execDjnz, State.opFetch_internal_operand, State.ran_b, hdjnz, State.setB_b, sub_one_eq_zero_iff]

/-! ### Ports -/

/-- Settles O42: each row is `State.ran` after its fetches, and the access of the port joins those cycles. -/
theorem portRows : Obligations.PortRows := by
  intro s
  refine ⟨fun n => ?_, fun n => ?_, fun r => ?_, ?_, fun r => ?_, ?_⟩
  · simp only [exec, execInAN, State.opFetch_operand, State.ran_a, State.ran_ioReadAt, State.ran_portByte]
    rfl
  · simp only [exec, execOutNA, State.opFetch_operand, State.ran_a, State.ran_ioWriteAt]
    rfl
  · simp only [exec, execInRC, State.opFetch_ran, State.ran_bc, State.ran_ioReadAt, State.ran_portByte]
    rfl
  · simp only [exec, execInC, State.opFetch_ran, State.ran_bc, State.ran_ioReadAt, State.ran_portByte]
    rfl
  · simp only [exec, execOutCR, State.opFetch_ran, State.ran_bc, State.ran_reg, State.ran_ioWriteAt]
    rfl
  · simp only [exec, execOutC0, State.opFetch_ran, State.ran_bc, State.ran_ioWriteAt]
    rfl

end Sys2Proof.Machine
end

section
/-! SUPPORT. EI's deferral (spec/42_base_control.md R335, spec/60_exceptions.md R654): whatever an instruction is, its step is one
row after some fetches, and neither touches the request latch. -/

namespace Sys2Proof.Machine

/-- What each round of a loop keeps, the loop keeps. -/
theorem iterate_keeps {α β : Type} {f : α → α} {g : α → β} (h : ∀ a, g (f a) = g a) (k : Nat) (a : α) :
    g (f^[k] a) = g a := by
  have hsemi : Function.Semiconj g f id := h
  rw [hsemi.iterate_right k a, Function.iterate_id, id]

/-- A prefix row is one fetch, or, for an index byte that the next row ignores, nothing (R571, R596). -/
theorem exec_prefix {i : Instr} {pg : Page} (s : State) (hi : i.selects = some pg) :
    exec i s = .next s.opFetch ∨ exec i s = .next s := by
  cases i with
  | cbPrefix | ddPrefix | edPrefix | fdPrefix | ddcbPrefix | fdcbPrefix | rePrefixDd _ | rePrefixFd _ | edAfterDd | edAfterFd =>
    exact .inl rfl
  | ddIgnored _ | fdIgnored _ => exact .inr rfl
  | _ => exact nomatch hi

/-- An instruction that completes is its last row, after a fetch for each prefix row that has one. -/
theorem executeRows_eq_exec {n : Nat} {pg : Page} {s t : State} (ht : executeRows exec n pg s = .next t) :
    ∃ i k, executeRows exec n pg s = exec i (State.opFetch^[k] s) := by
  induction n generalizing pg s with
  | zero => exact nomatch ht
  | succ n ih =>
    cases hd : decode pg s.window with
    | error e => simp [executeRows, hd] at ht
    | ok i =>
      cases hs : i.selects with
      | none => exact ⟨i, 0, executeRows_last hd hs⟩
      | some pg' =>
        obtain hx | hx := exec_prefix s hs
        · rw [executeRows_prefix hd hs hx] at ht ⊢
          obtain ⟨j, k, hj⟩ := ih ht
          exact ⟨j, k + 1, hj⟩
        · rw [executeRows_prefix hd hs hx] at ht ⊢
          exact ih ht

/-- A row after its prefix fetches keeps the request latch, and only EI defers anew. -/
theorem exec_opFetches_request (i : Instr) (k : Nat) (s : State) :
    ∃ u, exec i (State.opFetch^[k] { s with eiBlock := false }) = .next u ∧ u.irqPend = s.irqPend
      ∧ (u.eiBlock = false ∨ i = .ei) := by
  have hfetches : (State.opFetch^[k] { s with eiBlock := false }).control = { s with eiBlock := false }.control :=
    iterate_keeps (f := State.opFetch) (g := State.control) (fun _ => rfl) k _
  obtain ⟨u, hu, -, hirq, -, -, -, -, -, hei⟩ :=
    everyRowCompletesAndKeepsControlBits i (State.opFetch^[k] { s with eiBlock := false })
  exact ⟨u, hu, hirq.trans (congrArg Control.irqPend hfetches), hei.imp_left (·.trans (congrArg Control.eiBlock hfetches))⟩

/-- A step that executes is one row after fetches. -/
theorem step_eq_exec {s t : State} (hs : s.Executes) (ht : step s = .next t) :
    ∃ i k, step s = exec i (State.opFetch^[k] { s with eiBlock := false }) := by
  rw [step_executes hs] at ht ⊢
  exact executeRows_eq_exec ht

/-- The step at an EI byte enables IRQs and defers them, so that the next step executes. -/
theorem step_ei {s : State} (hs : s.Executes) (h : s.reply 0 s.pc = 0xFB) :
    ∃ t, step s = .next t ∧ t.iff1 = true ∧ t.iff2 = true ∧ t.irqPend = s.irqPend ∧ t.Executes := by
  have hstep : step s = exec .ei { s with eiBlock := false } := step_of_bytesAt (i := .ei) hs rfl rfl ⟨h, trivial⟩
  obtain ⟨hnmi, -, hhalted⟩ := hs
  exact ⟨_, hstep, rfl, rfl, rfl, hnmi, by simp [State.irqRecognised], hhalted⟩

/-- Settles O55: EI leaves a state that executes (`step_ei`), its step is one row after fetches (`step_of_bytesAt`,
`step_eq_exec`), and `exec_opFetches_request` says what such a row does. -/
theorem eiDefersOneInstruction : Obligations.EiDefersOneInstruction := by
  intro s hs hbyte
  obtain ⟨t, ht, hiff1, hiff2, hirq, hexec⟩ := step_ei hs hbyte
  refine ⟨t, ht, hiff1, hiff2, hirq, hexec, fun i hwf hi hne hb => ?_, fun u hu => ?_⟩
  · obtain ⟨u, hu, hirq', hei⟩ := exec_opFetches_request i i.page.leadIn.length t
    exact ⟨u, (step_of_bytesAt hexec hwf hi hb).trans hu, hirq'.trans hirq, hei.resolve_right hne⟩
  · obtain ⟨i, k, hrow⟩ := step_eq_exec hexec hu
    obtain ⟨v, hv, hirq', hei⟩ := exec_opFetches_request i k t
    cases (hrow.trans hv).symm.trans hu
    refine ⟨hirq'.trans hirq, hei.imp_right ?_⟩
    rintro rfl
    exact ⟨k, hrow⟩

end Sys2Proof.Machine
end

section
/-! SUPPORT. Waiting in the halt (spec/42_base_control.md R332, spec/60_exceptions.md R661): what one halted cycle keeps, any number of
them keep, and each is one M1 fetch. -/

namespace Sys2Proof.Machine

/-- A halted step: the deferral is over, then a fetch at PC (R654, R661). -/
def State.haltWait (s : State) : State := { s with eiBlock := false }.haltedCycle

theorem State.haltWait_through (s : State) :
    s.haltWait = { s.through [s.cFetch s.pc] with ir := countedIr s.ir, eiBlock := false } := rfl

/-- With no NMI and IRQs disabled, nothing leaves the halt. -/
theorem step_haltWait {s : State} (hh : s.halted = true) (hn : s.nmiPend = false) (hi : s.iff1 = false) :
    step s = .next s.haltWait :=
  step_halted hn (by simp [State.irqRecognised, hi]) hh

/-- Any number of steps in such a halt. -/
theorem run_haltWait (k : Nat) {s : State} (hh : s.halted = true) (hn : s.nmiPend = false) (hi : s.iff1 = false) :
    core.run k s = .next (State.haltWait^[k] s) := by
  induction k generalizing s with
  | zero => rfl
  | succ k ih =>
    have hstep : core.step s = .next s.haltWait := step_haltWait hh hn hi
    simp only [Host.Core.run, hstep]
    exact ih hh hn hi

/-- Halted cycles are M1 fetches of four ticks each. -/
theorem State.Runs.haltWaits (s : State) (k : Nat) : s.Runs [] (4 * k) k (State.haltWait^[k] s) := by
  induction k with
  | zero => exact refl s
  | succ k ih =>
    rw [Function.iterate_succ_apply']
    exact ih.update.fetchAt

/-- Settles O56: the run is `run_haltWait`; what one halted cycle keeps the run keeps (`iterate_keeps`), and R and the ticks are
those of `State.Runs.haltWaits`. -/
theorem haltWaits : Obligations.HaltWaits := by
  intro k s hh hn hi
  have hruns := State.Runs.haltWaits s k
  obtain ⟨es, hbus, -, hticks⟩ := hruns.time
  have keeps {β : Type} (g : State → β) (hg : ∀ t : State, g t.haltWait = g t) : g (State.haltWait^[k] s) = g s :=
    iterate_keeps hg k s
  refine ⟨(step_haltWait hh hn hi).trans (next_congr s.haltWait_through), State.haltWait^[k] s, run_haltWait k hh hn hi,
    keeps (·.pc) fun _ => rfl, (keeps (·.halted) fun _ => rfl).trans hh, keeps (·.irqPend) fun _ => rfl,
    keeps (·.mem) fun _ => rfl, fun w hw => keeps (·.getWord w) fun t => ?_, ?_, ?_⟩
  · cases w with
    | ir => exact absurd rfl hw
    | _ => rfl
  · rw [hruns.counts]
    exact (iterate_nextR s.r k).1
  · rw [hbus, baseTicks_append, hticks, Nat.add_comm]

end Sys2Proof.Machine
end

section
/-! SUPPORT. The CB page (spec/43_cb_page.md): a shift or rotate as a move by one place and the bit that comes in, the flags of BIT,
and the rows in the form the result statements have. -/

namespace Sys2Proof

/-! ### Shifts and rotates (R402 to R409) -/

/-- The shifts and rotates that move a byte up. -/
def RotOp.ups : List RotOp := [.rlc, .rl, .sla, .sll]

/-- The shifts and rotates that move a byte down. -/
def RotOp.downs : List RotOp := [.rrc, .rr, .sra, .srl]

theorem RotOp.mem_ups {o : RotOp} : o ∈ ups ↔ o = .rlc ∨ o = .rl ∨ o = .sla ∨ o = .sll := by simp [ups]
theorem RotOp.mem_downs {o : RotOp} : o ∈ downs ↔ o = .rrc ∨ o = .rr ∨ o = .sra ∨ o = .srl := by simp [downs]

/-- The bit that comes in at the end a shift or rotate frees, tied to the model by `rotRes_up` and `rotRes_down`. -/
def RotOp.bitIn (cin : Bool) (v : Byte) : RotOp → Bool
  | .rlc | .sra => bit v 7
  | .rrc => bit v 0
  | .rl | .rr => cin
  | .sla | .srl => false
  | .sll => true

/-- A byte masked by 0x80 is its bit 7. -/
theorem and_0x80 (v : Byte) : v &&& 0x80 = when (bit v 7) 0x80 := BitVec.and_twoPow v 7

theorem rotRes_up {o : RotOp} (ho : o ∈ RotOp.ups) (cin : Bool) (v : Byte) :
    rotRes o cin v = v <<< 1 ||| when (o.bitIn cin v) 0x01 := by
  obtain rfl | rfl | rfl | rfl := RotOp.mem_ups.mp ho
  · rfl
  · rfl
  · exact BitVec.or_zero.symm
  · rfl

theorem rotRes_down {o : RotOp} (ho : o ∈ RotOp.downs) (cin : Bool) (v : Byte) :
    rotRes o cin v = v >>> 1 ||| when (o.bitIn cin v) 0x80 := by
  obtain rfl | rfl | rfl | rfl := RotOp.mem_downs.mp ho
  · rfl
  · rfl
  · exact congrArg (v >>> 1 ||| ·) (and_0x80 v)
  · exact BitVec.or_zero.symm

theorem bit_rotRes_up {o : RotOp} (ho : o ∈ RotOp.ups) (cin : Bool) (v : Byte) :
    bit (rotRes o cin v) 0 = o.bitIn cin v ∧ ∀ k < 7, bit (rotRes o cin v) (k + 1) = bit v k := by
  rw [rotRes_up ho]
  refine ⟨?_, fun k hk => ?_⟩
  · rw [bit_or, bit_when]
    simp [bit]
  · have hlt : k + 1 < 8 := by omega
    rw [bit_or, bit_when]
    simp [bit, hlt, -BitVec.getLsbD_eq_getElem]

theorem bit_rotRes_down {o : RotOp} (ho : o ∈ RotOp.downs) (cin : Bool) (v : Byte) :
    bit (rotRes o cin v) 7 = o.bitIn cin v ∧ ∀ k < 7, bit (rotRes o cin v) k = bit v (k + 1) := by
  rw [rotRes_down ho]
  refine ⟨?_, fun k hk => ?_⟩
  · rw [bit_or, bit_when]
    simp [bit]
  · have hlow : ∀ k < 7, bit 0x80 k = false := by decide
    rw [bit_or, bit_when, hlow k hk]
    simp [bit, Nat.add_comm]

theorem rotOut_up {o : RotOp} (ho : o ∈ RotOp.ups) (v : Byte) : rotOut o v = bit v 7 := by
  obtain rfl | rfl | rfl | rfl := RotOp.mem_ups.mp ho <;> rfl

theorem rotOut_down {o : RotOp} (ho : o ∈ RotOp.downs) (v : Byte) : rotOut o v = bit v 0 := by
  obtain rfl | rfl | rfl | rfl := RotOp.mem_downs.mp ho <;> rfl

/-- Settles O28: every place but the freed end is the move by one, and the freed end is `RotOp.bitIn`. -/
theorem shiftsBitByBit : Obligations.ShiftsBitByBit := by
  intro cin v
  have up {o : RotOp} (ho : o ∈ RotOp.ups) := bit_rotRes_up ho cin v
  have down {o : RotOp} (ho : o ∈ RotOp.downs) := bit_rotRes_down ho cin v
  exact ⟨fun o ho => ⟨rotOut_up ho v, (up ho).2⟩, fun o ho => ⟨rotOut_down ho v, (down ho).2⟩,
    (up (o := .rlc) (by decide)).1, (up (o := .rl) (by decide)).1, (up (o := .sla) (by decide)).1, (up (o := .sll) (by decide)).1,
    (down (o := .rrc) (by decide)).1, (down (o := .rr) (by decide)).1, (down (o := .sra) (by decide)).1,
    (down (o := .srl) (by decide)).1⟩

/-! ### BIT (R410, R411) -/

/-- Z and PV are set when the bit tested is 0, S when it is bit 7 and 1. -/
theorem bitFlags_eq (b : BitVec 3) (v xy f : Byte) :
    bitFlags b v xy f = (f &&& 0x01) ||| 0x10 ||| (xy &&& 0x28)
      ||| (if bit v b.toNat then (if b = 7 then 0x80 else 0) else 0x44) := by
  have hZS (t : Bool) : when (!t) 0x44 ||| when (b == 7 && t) flagS = if t then (if b = 7 then 0x80 else 0) else 0x44 := by
    cases t <;> simp [when, flagS]
  rw [bitFlags, BitVec.or_assoc (_ ||| _), hZS]
  rfl

namespace Machine

/-! ### What follows the fetch -/

/-- The read-modify-write of a byte after the fetch of a row (R400). -/
theorem State.opFetch_modifyAt (s : State) (a : Word) (g : Byte → Byte) :
    let v := s.reply 1 a
    s.opFetch.modifyAt a g =
      { s.ran 1 (s.cFetch s.pc :: s.cRead 1 a :: cIdle a 1 ++ [cWrite a (g v)]) with mem := s.mem.write a.toNat (g v) } := by
  rw [State.opFetch_ran, State.ran_modifyAt]
  rfl

/-! ### The rows -/

theorem exec_rotOnR (o : RotOp) (r : Reg8) (s : State) : exec (o.onR r) s = .next (s.rotReg o r) := by cases o <;> rfl
theorem exec_rotOnIndHl (o : RotOp) (s : State) : exec o.onIndHl s = .next (s.rotIndHl o) := by cases o <;> rfl

/-- Settles O43: a register form is one fetch, a form on (HL) the read-modify-write `State.opFetch_modifyAt` or, for BIT, a read
and an idle tick; the flags of BIT are `bitFlags_eq`. -/
theorem cbPageRows : Obligations.CbPageRows := by
  intro s
  refine ⟨fun o r => ?_, fun o => ?_, fun b r => ?_, fun b => ?_, fun b r => ?_, fun b r => ?_,
    fun b => next_congr (s.opFetch_modifyAt s.hl (resBit b)), fun b => next_congr (s.opFetch_modifyAt s.hl (setBit b))⟩
  · rw [exec_rotOnR, State.rotReg]
    simp only [State.opFetch_ran, State.ran_reg, State.ran_f]
    rfl
  · rw [exec_rotOnIndHl, State.rotIndHl, State.rotMem, State.opFetch_modifyAt]
    rfl
  · simp only [exec, execBitBR, bitFlags_eq, State.opFetch_ran, State.ran_reg, State.ran_f]
  · simp only [exec, execBitBIndHl, bitFlags_eq, State.opFetch_ran, State.ran_readAt, State.ran_internal, State.ran_byteAt,
      State.ran_hl, State.ran_wz, State.ran_f]
    rfl
  · simp only [exec, execResBR, State.opFetch_ran]
    rfl
  · simp only [exec, execSetBR, State.opFetch_ran]
    rfl

end Machine
end Sys2Proof
end

section
/-! SUPPORT. NEG, the moves of I and R, RLD, RRD and the no-operations of the ED page (spec/44_ed_page.md R454, R460, R461, R466 to
R470) in the form the result statements have: the shared operations of these rows after the opcode fetch, each one list of cycles. -/

namespace Sys2Proof.Machine

/-! ### What follows the fetch -/

/-- `LD A,I` and `LD A,R` after the fetch, whichever byte goes to A: one idle tick at the IR the fetch has counted (R468, R469). -/
theorem State.opFetch_loadAir (s : State) (v : Byte) :
    s.opFetch.loadAir v = (s.ran 1 (s.cFetch s.pc :: cIdle (countedIr s.ir) 1)).setAF
      (v, (s.f &&& 0x01) ||| sz53 v ||| (if s.iff2 then 0x04 else 0)) := by
  rw [State.opFetch_ran, State.loadAir, State.ran_internal]
  rfl

/-- RLD and RRD after the fetch, whichever byte w goes to (HL) and a to A (R466, R467). -/
theorem State.opFetch_digitRotate (s : State) (w a : Byte) :
    s.opFetch.digitRotate w a =
      { (s.ran 1 (s.cFetch s.pc :: s.cRead 1 s.hl :: cIdle s.hl 4 ++ [cWrite s.hl w])).setAF
          (a, (s.f &&& 0x01) ||| sz53p a) with
        mem := s.mem.write s.hl.toNat w, wz := s.hl + 1 } := by
  rw [State.opFetch_ran, State.digitRotate, State.ran_readAt, State.ran_internal, State.ran_writeAt]
  rfl

/-! ### The rows -/

/-- Settles O44: NEG and the no-operations are one fetch, LD I,A and LD R,A the fetch, an idle tick and the half of IR they write,
and the rest `State.opFetch_loadAir` and `State.opFetch_digitRotate`. -/
theorem edPageRows : Obligations.EdPageRows := by
  intro s
  have hfetch := s.opFetch_ran
  have hm : s.opFetch.byteAt s.hl = s.reply 1 s.hl := s.opFetch_reply 0 s.hl
  refine ⟨fun y => ?_, ?_, ?_, ?_, ?_, ?_, ?_, fun q => next_congr hfetch, fun op => next_congr hfetch⟩
  · simp only [exec, execNeg, hfetch]
  · simp only [exec, execLdIA, hfetch, State.ran_internal, State.ran_ir, State.ran_a, withHi]
    rfl
  · simp only [exec, execLdRA, hfetch, State.ran_internal, State.ran_ir, State.ran_a, withLo, hi8_countedIr]
    rfl
  · simp only [exec, execLdAI, State.opFetch_loadAir, State.i, State.opFetch_ir, hi8_withLo]
  · simp only [exec, execLdAR, State.opFetch_loadAir, State.r, State.opFetch_ir, lo8_withLo]
  · simp only [exec, execRld, State.opFetch_digitRotate, State.opFetch_hl, hm]
    rfl
  · simp only [exec, execRrd, State.opFetch_digitRotate, State.opFetch_hl, hm]
    rfl

end Sys2Proof.Machine
end

section
/-! SUPPORT. The block instructions of the ED page (spec/45_ed_block.md) in the form the result statements have: their flags, one
iteration of each kind after the opcode fetch as one list of cycles, and what repeating adds (R521). -/

namespace Sys2Proof

/-! ### Flags (R522, R526, R538) -/

theorem when_bne {α : Type} [DecidableEq α] (x y : α) (v : Byte) : when (x != y) v = if x = y then 0 else v := by
  by_cases h : x = y <;> simp [when, h]

/-- `XYBlock(n)` joined to other flags: 5 is bit 1 of n and 3 is bit 3 (R538). -/
theorem or_xyBlock (f n : Byte) :
    f ||| xyBlock n = f ||| (if bit n 1 then 0x20 else 0) ||| (if bit n 3 then 0x08 else 0) := by
  rw [xyBlock, BitVec.or_comm (when _ _), ← BitVec.or_assoc]
  rfl

theorem ldBlockFlags_eq (n f : Byte) (bc : Word) :
    ldBlockFlags n f bc = (f &&& 0xC1) ||| (if bc = 0 then 0 else 0x04) ||| (if bit n 1 then 0x20 else 0)
      ||| (if bit n 3 then 0x08 else 0) := by
  rw [ldBlockFlags, or_xyBlock, when_bne]
  rfl

theorem cpBlockFlags_eq (a v f : Byte) (bc : Word) :
    let res := a - v
    let h := hcSub (lookup8 a v res % 8)
    let n := res - (if h = 0 then 0 else 1)
    cpBlockFlags a v f bc = (f &&& 0x01) ||| 0x02 ||| h ||| (sz53 res &&& 0xC0) ||| (if bc = 0 then 0 else 0x04)
      ||| (if bit n 1 then 0x20 else 0) ||| (if bit n 3 then 0x08 else 0) := by
  simp only [cpBlockFlags, or_xyBlock, when_bne]
  rfl

/-- PAR has no bit but PV. -/
theorem bit_par (v : Byte) (k : Nat) :
    bit (par v) k = (((List.range 8).countP (bit v)) % 2 == 0 && bit flagPV k) := by
  rw [par, bit_when]

/-- The flags of a block input or output, place by place. -/
theorem bit_ioFlags (b v : Byte) (k n : Nat) :
    bit (ioFlags b v k) n = (bit b n && bit 0xA8 n || b == 0 && bit flagZ n || bit v 7 && bit flagN n
      || decide (255 < k) && bit (flagH ||| flagC) n
      || ((List.range 8).countP (bit (BitVec.ofNat 8 (k % 8) ^^^ b))) % 2 == 0 && bit flagPV n) := by
  simp only [ioFlags, bit_or, bit_sz53, bit_when, bit_par, gt_iff_lt]

/-- The 1-bits of (k AND 7) XOR B, counted in the byte or in the number. -/
theorem countP_bit_xor (b : Byte) (k : Nat) :
    (List.range 8).countP (bit (BitVec.ofNat 8 (k % 8) ^^^ b))
      = ((List.range 8).filter (fun j => (k % 8 ^^^ b.toNat) / 2 ^ j % 2 = 1)).length := by
  have hk : (BitVec.ofNat 8 (k % 8)).toNat = k % 8 := by
    rw [BitVec.toNat_ofNat]
    omega
  have hbit : bit (BitVec.ofNat 8 (k % 8) ^^^ b) = fun j => decide ((k % 8 ^^^ b.toNat) / 2 ^ j % 2 = 1) :=
    funext fun j => by rw [← Nat.testBit_eq_decide_div_mod_eq, bit, BitVec.getLsbD, BitVec.toNat_xor, hk]
  rw [hbit, List.countP_eq_length_filter]

/-- The flags of R538 bit by bit. -/
theorem ioFlags_bits (b v : Byte) (k : Nat) :
    let f := ioFlags b v k
    (∀ n ∈ [7, 5, 3], bit f n = bit b n) ∧ bit f 6 = (b == 0) ∧ bit f 1 = bit v 7
      ∧ bit f 4 = decide (255 < k) ∧ bit f 0 = decide (255 < k)
      ∧ bit f 2 = (((List.range 8).filter (fun j => (k % 8 ^^^ b.toNat) / 2 ^ j % 2 = 1)).length % 2 == 0) := by
  simp only [bit_ioFlags, countP_bit_xor]
  simp [bit, flagZ, flagN, flagH, flagC, flagPV]

namespace Machine

/-! ### One iteration after its fetch -/

theorem State.setB_through (s : State) (v : Byte) (cs : List Cycle) : (s.setB v).through cs = (s.through cs).setB v := rfl

/-- LDI and LDD (R522, R523). -/
theorem State.ldBlock_ran (s : State) (dir : Word) :
    let v := s.reply 1 s.hl
    s.ldBlock dir =
      { (s.ran 1 (s.cFetch s.pc :: s.cRead 1 s.hl :: cWrite s.de v :: cIdle s.de 2)).setF
          (ldBlockFlags (v + s.a) s.f (s.bc - 1)) with
        bc := s.bc - 1, hl := s.hl + dir, de := s.de + dir, mem := s.mem.write s.de.toNat v } := by
  simp only [State.ldBlock, State.opFetch_ran, State.ran_readAt, State.ran_writeAt, State.internal_through]
  rfl

/-- CPI and CPD but for WZ (R526, R527). -/
theorem State.cpBlockCore_ran (s : State) (dir : Word) :
    s.cpBlockCore dir =
      { (s.ran 1 (s.cFetch s.pc :: s.cRead 1 s.hl :: cIdle s.hl 5)).setF
          (cpBlockFlags s.a (s.reply 1 s.hl) s.f (s.bc - 1)) with
        bc := s.bc - 1, hl := s.hl + dir } := by
  simp only [State.cpBlockCore, State.opFetch_ran, State.ran_readAt, State.ran_internal]
  rfl

/-- INI and IND: the port is the BC before the count (R530, R531). -/
theorem State.inBlock_ran (s : State) (dir : Word) :
    let v := s.portReply 1 s.bc
    s.inBlock dir =
      { (s.ran 1 (s.cFetch s.pc :: cIdle (countedIr s.ir) 1 ++ [s.cIn 1 s.bc, cWrite s.hl v])).setF
          (ioFlags (s.b - 1) v (v.toNat + (s.c + lo8 dir).toNat)) with
        bc := cat (s.b - 1) s.c, hl := s.hl + dir, wz := s.bc + dir, mem := s.mem.write s.hl.toNat v } := by
  simp only [State.inBlock, State.opFetch_ran, State.ran_internal, State.ran_ioReadAt, State.ran_writeAt, State.setB_b]
  simp only [State.setB, State.c, lo8_withHi]
  rfl

/-- OUTI and OUTD: the port is the BC after the count (R534, R535). -/
theorem State.outBlock_ran (s : State) (dir : Word) :
    let x := s.reply 1 s.hl
    s.outBlock dir =
      { (s.ran 1 (s.cFetch s.pc :: cIdle (countedIr s.ir) 1 ++ [s.cRead 1 s.hl, cOut (cat (s.b - 1) s.c) x])).setF
          (ioFlags (s.b - 1) x (x.toNat + (lo8 (s.hl + dir)).toNat)) with
        bc := cat (s.b - 1) s.c, hl := s.hl + dir, wz := cat (s.b - 1) s.c + dir } := by
  simp only [State.outBlock, State.opFetch_ran, State.ran_internal, State.ran_readAt, State.ioWriteAt_through,
    State.setB_through, State.ran_through]
  simp only [State.b, State.setB, hi8_withHi]
  rfl

/-! ### Repeating (R521) -/

theorem State.ldBlock_pc (s : State) (dir : Word) : (s.ldBlock dir).pc = s.pc + 1 := by simp [State.ldBlock]
theorem State.cpBlockCore_pc (s : State) (dir : Word) : (s.cpBlockCore dir).pc = s.pc + 1 := by simp [State.cpBlockCore]
theorem State.inBlock_pc (s : State) (dir : Word) : (s.inBlock dir).pc = s.pc + 1 := by simp [State.inBlock]
theorem State.outBlock_pc (s : State) (dir : Word) : (s.outBlock dir).pc = s.pc + 1 := by simp [State.outBlock]

/-- Repeating a row whose last byte is at p goes back to the ED byte before it. -/
theorem State.repeatAt_eq {u : State} {p : Word} (h : u.pc = p + 1) (a : Word) :
    u.repeatAt a = { u.through (cIdle a 5) with pc := p - 1 } := by
  have hp : u.pc - 2 = p - 1 := by rw [h]; bv_omega
  rw [State.repeatAt, State.internal_through, hp]

/-- A copy or compare that repeats also sets WZ, to the address after the ED byte (R524, R528). -/
theorem State.repeatAt_wz {u : State} {p : Word} (h : u.pc = p + 1) (a : Word) :
    { u.repeatAt a with wz := (u.repeatAt a).pc + 1 } = { u.through (cIdle a 5) with pc := p - 1, wz := p } := by
  rw [State.repeatAt_eq h, BitVec.sub_add_cancel]

theorem State.ldBlockRepeat_eq (s : State) (dir : Word) :
    s.ldBlockRepeat dir = if s.bc - 1 = 0 then s.ldBlock dir
      else { (s.ldBlock dir).through (cIdle s.de 5) with pc := s.pc - 1, wz := s.pc } := by
  simp only [State.ldBlockRepeat, State.ldBlock_bc, State.repeatAt_wz (s.ldBlock_pc dir)]

/-- The difference is 0 exactly when A is the byte read. -/
theorem State.cpBlockRepeat_eq (s : State) (dir : Word) :
    s.cpBlockRepeat dir = if s.bc - 1 = 0 ∨ s.a - s.reply 1 s.hl = 0 then s.cpBlock dir
      else { (s.cpBlockCore dir).through (cIdle s.hl 5) with pc := s.pc - 1, wz := s.pc } := by
  have hv : s.opFetch.byteAt s.hl = s.reply 1 s.hl := s.opFetch_reply 0 s.hl
  simp only [State.cpBlockRepeat, State.cpBlock, State.cpBlockCore_bc, hv, sub_eq_zero,
    State.repeatAt_wz (s.cpBlockCore_pc dir)]

theorem State.inBlockRepeat_eq (s : State) (dir : Word) :
    s.inBlockRepeat dir = if s.b - 1 = 0 then s.inBlock dir
      else { (s.inBlock dir).through (cIdle s.hl 5) with pc := s.pc - 1 } := by
  simp only [State.inBlockRepeat, State.inBlock_b, State.repeatAt_eq (s.inBlock_pc dir)]

theorem State.outBlockRepeat_eq (s : State) (dir : Word) :
    s.outBlockRepeat dir = if s.b - 1 = 0 then s.outBlock dir
      else { (s.outBlock dir).through (cIdle (cat (s.b - 1) s.c) 5) with pc := s.pc - 1 } := by
  have hport : (s.outBlock dir).bc = cat (s.b - 1) s.c := congrArg State.bc (s.outBlock_ran dir)
  simp only [State.outBlockRepeat, State.outBlock_b, hport, State.repeatAt_eq (s.outBlock_pc dir)]

/-! ### The rows -/

/-- Settles O45: one iteration is `State.ldBlock_ran` with the flags of `ldBlockFlags_eq`, and repeating is
`State.ldBlockRepeat_eq`. -/
theorem blockCopies : Obligations.BlockCopies := by
  intro s up dir v n u
  have hu : s.ldBlock dir = u := by rw [State.ldBlock_ran, ldBlockFlags_eq]
  have hone : exec (if up then .ldi else .ldd) s = .next (s.ldBlock dir) := by cases up <;> rfl
  have hrep : exec (if up then .ldir else .lddr) s = .next (s.ldBlockRepeat dir) := by cases up <;> rfl
  rw [hone, hrep, State.ldBlockRepeat_eq, hu]
  exact ⟨rfl, rfl⟩

/-- Settles O46: one iteration is `State.cpBlockCore_ran` with the flags of `cpBlockFlags_eq`, and repeating is
`State.cpBlockRepeat_eq`. -/
theorem blockCompares : Obligations.BlockCompares := by
  intro s up dir v res h n u
  have hu : s.cpBlockCore dir = u := by rw [State.cpBlockCore_ran, cpBlockFlags_eq]
  have hone : exec (if up then .cpi else .cpd) s = .next (s.cpBlock dir) := by cases up <;> rfl
  have hrep : exec (if up then .cpir else .cpdr) s = .next (s.cpBlockRepeat dir) := by cases up <;> rfl
  rw [hone, hrep, State.cpBlockRepeat_eq, State.cpBlock, hu]
  exact ⟨rfl, rfl⟩

/-- Settles O47: the flags are `ioFlags_bits`, one iteration is `State.inBlock_ran` or `State.outBlock_ran`, and repeating is
`State.inBlockRepeat_eq` or `State.outBlockRepeat_eq`. -/
theorem blockPortRows : Obligations.BlockPortRows := by
  refine ⟨ioFlags_bits, fun s up => ?_⟩
  intro dir v x b u w
  have hu : s.inBlock dir = u := s.inBlock_ran dir
  have hw : s.outBlock dir = w := s.outBlock_ran dir
  have hini : exec (if up then .ini else .ind) s = .next (s.inBlock dir) := by cases up <;> rfl
  have hinir : exec (if up then .inir else .indr) s = .next (s.inBlockRepeat dir) := by cases up <;> rfl
  have houti : exec (if up then .outi else .outd) s = .next (s.outBlock dir) := by cases up <;> rfl
  have hotir : exec (if up then .otir else .otdr) s = .next (s.outBlockRepeat dir) := by cases up <;> rfl
  rw [hini, hinir, houti, hotir, State.inBlockRepeat_eq, State.outBlockRepeat_eq, hu, hw]
  exact ⟨rfl, rfl, rfl, rfl⟩

end Machine
end Sys2Proof
end

section
/-! SUPPORT. Runs of DD and FD bytes (spec/46_index_pages.md R571, R596): each is one M1 fetch that selects its index register anew;
the first byte after them leads to the row that ends the instruction within one more row. -/

namespace Sys2Proof.Machine

/-! ### Where a DD or FD byte is a prefix -/

/-- The page of the next row in a run of DD and FD bytes: at its start the base page, then that of the index register selected last
(R571, R596). -/
def pageAfter : Option Index → Page
  | none => .base
  | some x => x.page

theorem indexByte_cases {v : Byte} (hv : isIndexByte v = true) : v = 0xDD ∨ v = 0xFD := by
  simpa [isIndexByte] using hv

/-- A DD or FD byte there is one M1 fetch, and selects its index register whatever was selected (R596). -/
theorem executeRows_indexByte {n : Nat} {o : Option Index} {s : State} (hv : isIndexByte (s.reply 0 s.pc) = true) :
    executeRows exec (n + 1) (pageAfter o) s
      = executeRows exec n (pageAfter (some (indexOf (s.reply 0 s.pc)))) s.opFetch := by
  have hb (v : Byte) (h : s.reply 0 s.pc = v) : s.BytesAt s.pc [v] := ⟨h, trivial⟩
  obtain hv | hv := indexByte_cases hv <;> rw [hv]
  · match o with
    | none => exact executeRows_prefix_byte (p := .ddPrefix) (fun _ => rfl) rfl rfl (hb _ hv)
    | some .ix => exact executeRows_prefix_byte (p := .rePrefixDd .ix) (fun _ => rfl) rfl rfl (hb _ hv)
    | some .iy => exact executeRows_prefix_byte (p := .rePrefixFd .ix) (fun _ => rfl) rfl rfl (hb _ hv)
  · match o with
    | none => exact executeRows_prefix_byte (p := .fdPrefix) (fun _ => rfl) rfl rfl (hb _ hv)
    | some .ix => exact executeRows_prefix_byte (p := .rePrefixDd .iy) (fun _ => rfl) rfl rfl (hb _ hv)
    | some .iy => exact executeRows_prefix_byte (p := .rePrefixFd .iy) (fun _ => rfl) rfl rfl (hb _ hv)

/-! ### A run that does not end -/

/-- One DD or FD byte, and the run after it. -/
theorem State.prefixesFor_succ (s : State) (n : Nat) :
    s.PrefixesFor (n + 1) ↔ isIndexByte (s.reply 0 s.pc) = true ∧ s.opFetch.PrefixesFor n := by
  have hnext (k : Nat) : s.opFetch.reply k (s.opFetch.pc + BitVec.ofNat 16 k)
      = s.reply (k + 1) (s.pc + BitVec.ofNat 16 (k + 1)) := by
    rw [State.opFetch_reply, State.opFetch_pc, Nat.add_comm 1 k, BitVec.add_assoc, BitVec.ofNat_add, BitVec.add_comm 1]
    rfl
  simp only [State.PrefixesFor, Nat.forall_lt_succ_left', hnext, BitVec.add_zero]

/-- As many DD and FD bytes as rows may be read leave no row to end the instruction. -/
theorem executeRows_of_prefixesFor {n : Nat} {o : Option Index} {s : State} (h : s.PrefixesFor n) :
    executeRows exec n (pageAfter o) s = .fault .endlessPrefixes := by
  induction n generalizing o s with
  | zero => rfl
  | succ n ih =>
    obtain ⟨hv, hrest⟩ := (s.prefixesFor_succ n).mp h
    rw [executeRows_indexByte hv]
    exact ih hrest

/-! ### A run that ends -/

/-- The pages with prefix rows (R152, R596). -/
def hasPrefixRows : Page → Bool
  | .base | .dd | .fd => true
  | .cb | .ed | .ddcb | .fdcb => false

/-- Every row of another page ends the instruction. -/
theorem selects_eq_none_of_page {i : Instr} (h : hasPrefixRows i.page = false) : i.selects = none := by
  cases i with
  | cbPrefix | ddPrefix | edPrefix | fdPrefix | ddcbPrefix | fdcbPrefix | rePrefixDd _ | rePrefixFd _ | edAfterDd | edAfterFd
  | ddIgnored _ | fdIgnored _ => exact nomatch h
  | _ => rfl

theorem selects_eq_none_of_decode {pg : Page} {bs : List Byte} {i : Instr} (hd : decode pg bs = .ok i)
    (hpg : hasPrefixRows pg = false) : i.selects = none := by
  obtain ⟨-, rfl, -⟩ := decodedRowHasTheseBytes pg bs i hd
  exact selects_eq_none_of_page hpg

/-- A base prefix byte has a row of its own on the index pages, so DD and FD are not ignored before it (R571). -/
theorem selects_eq_none_of_no_indexRow {op : Byte} {bs : List Byte} {i : Instr} (hop : hasIndexRow op = false)
    (hd : decode .base (op :: bs) = .ok i) : i.selects = none := by
  obtain ⟨-, hpage, henc⟩ := decodedRowHasTheseBytes _ _ _ hd
  have hbyte {v : Byte} {vs : List Byte} (h : v :: vs <+: op :: bs) : hasIndexRow v = false :=
    (List.cons_prefix_cons.mp h).1 ▸ hop
  cases i with
  | cbPrefix | ddPrefix | edPrefix | fdPrefix => exact absurd (hbyte henc) (by decide)
  | ddcbPrefix | rePrefixDd _ | edAfterDd | ddIgnored _ | fdcbPrefix | rePrefixFd _ | edAfterFd | fdIgnored _ => exact nomatch hpage
  | _ => rfl

/-- Where the decoder can only read a row that ends the instruction, that row completes. -/
theorem executeRows_completes_of_last {n : Nat} {pg : Page} {s : State}
    (h : ∀ i, decode pg s.window = .ok i → i.selects = none) : ∃ t, executeRows exec (n + 1) pg s = .next t := by
  obtain ⟨i, hd⟩ := everyByteIsAnInstruction pg (s.reply 0 s.pc) (s.reply 1 (s.pc + 1)) (s.reply 2 (s.pc + 2))
  obtain ⟨t, ht, -⟩ := everyRowCompletesAndKeepsControlBits i s
  exact ⟨t, (executeRows_last hd (h i hd)).trans ht⟩

/-- A byte that is not DD or FD ends the run: its row, or the row it leads to, ends the instruction. -/
theorem executeRows_completes_of_other {n : Nat} {o : Option Index} {s : State}
    (hv : ¬ isIndexByte (s.reply 0 s.pc) = true) : ∃ t, executeRows exec (n + 2) (pageAfter o) s = .next t := by
  obtain ⟨i, hd⟩ := everyByteIsAnInstruction (pageAfter o) (s.reply 0 s.pc) (s.reply 1 (s.pc + 1)) (s.reply 2 (s.pc + 2))
  cases hs : i.selects with
  | none =>
    refine executeRows_completes_of_last fun j hj => ?_
    cases hd.symm.trans hj
    exact hs
  | some pg =>
    obtain ⟨hwf, -, henc⟩ := decodedRowHasTheseBytes _ _ _ hd
    obtain ⟨u, hu, -⟩ := everyRowCompletesAndKeepsControlBits i s
    rw [executeRows_prefix hd hs hu]
    refine executeRows_completes_of_last fun j hj => ?_
    have hother {v : Byte} {vs : List Byte} (h : v :: vs <+: s.window) : ¬ isIndexByte v = true :=
      (List.cons_prefix_cons.mp h).1 ▸ hv
    cases i with
    | cbPrefix | edPrefix | ddcbPrefix | fdcbPrefix | edAfterDd | edAfterFd =>
      cases hs
      exact selects_eq_none_of_decode hj rfl
    | ddPrefix | fdPrefix => exact absurd rfl (hother henc)
    | rePrefixDd x | rePrefixFd x => cases x <;> exact absurd rfl (hother henc)
    | ddIgnored op | fdIgnored op =>
      cases hs
      cases hu
      obtain ⟨bs, hbs⟩ := henc
      have hw : s.window = op :: bs := hbs.symm
      exact selects_eq_none_of_no_indexRow (by simpa [Instr.wellFormed] using hwf) (hw ▸ hj)
    | _ => exact nomatch hs

/-- A run shorter than n DD and FD bytes ends within n + 1 rows. -/
theorem executeRows_completes {n : Nat} {o : Option Index} {s : State} (h : ¬ s.PrefixesFor n) :
    ∃ t, executeRows exec (n + 1) (pageAfter o) s = .next t := by
  induction n generalizing o s with
  | zero => exact absurd (fun k hk => absurd hk k.not_lt_zero) h
  | succ n ih =>
    by_cases hv : isIndexByte (s.reply 0 s.pc) = true
    · rw [executeRows_indexByte hv]
      exact ih fun hrest => h ((s.prefixesFor_succ n).mpr ⟨hv, hrest⟩)
    · exact executeRows_completes_of_other hv

/-! ### The step -/

/-- A step that does not execute is an acceptance or a halted cycle (R653). -/
theorem step_completes_of_not_executes {s : State} (h : ¬ s.Executes) : ∃ t, step s = .next t := by
  by_cases hn : s.nmiPend = true
  · exact ⟨_, step_nmi hn⟩
  by_cases hi : s.irqRecognised = true
  · exact ⟨_, step_irq (Bool.eq_false_of_not_eq_true hn) hi⟩
  rw [Bool.not_eq_true] at hn hi
  by_cases hh : s.halted = true
  · exact ⟨_, step_halted hn hi hh⟩
  · exact absurd ⟨hn, hi, Bool.eq_false_of_not_eq_true hh⟩ h

theorem step_completes {s : State} (h : ¬ s.Executes ∨ ¬ s.PrefixesFor 65536) : ∃ t, step s = .next t := by
  by_cases hs : s.Executes
  · rw [step_executes hs]
    exact executeRows_completes (o := none) (h.resolve_left (not_not_intro hs))
  · exact step_completes_of_not_executes hs

theorem step_of_prefixesFor {s : State} (hs : s.Executes) (h : s.PrefixesFor 65537) : step s = .fault .endlessPrefixes :=
  (step_executes hs).trans (executeRows_of_prefixesFor (o := none) h)

/-- In plain memory the bytes of a run stand in memory, so one that never ends is a run of any length. -/
theorem State.AllIndexBytes.prefixesFor {s : State} (hp : s.agent = .plainMemory) (h : s.AllIndexBytes) (n : Nat) :
    s.PrefixesFor n := by
  intro k _
  rw [State.reply_plain k _ hp]
  exact h _

/-- In plain memory 65,536 bytes from PC on are all of memory. -/
theorem State.PrefixesFor.allIndexBytes {s : State} (hp : s.agent = .plainMemory) (h : s.PrefixesFor 65536) :
    s.AllIndexBytes := by
  intro a
  have ha : s.pc + BitVec.ofNat 16 (a - s.pc).toNat = a := by
    rw [BitVec.ofNat_toNat, BitVec.setWidth_eq, BitVec.add_comm, BitVec.sub_add_cancel]
  have hk := h (a - s.pc).toNat (a - s.pc).isLt
  rwa [ha, State.reply_plain _ _ hp] at hk

/-- Settles O13: by induction on the run of DD and FD bytes, the rows a step may read are used up by a run that is long enough
(`executeRows_of_prefixesFor`), and a shorter one completes (`executeRows_completes`); in plain memory a run of 65,536 bytes is all
of memory. -/
theorem onlyEndlessPrefixesStop : Obligations.OnlyEndlessPrefixesStop := by
  refine fun s => ⟨fun hp => ⟨?_, fun hnot => step_completes ?_⟩, step_completes, step_of_prefixesFor⟩
  · rintro ⟨hs, hall⟩
    exact step_of_prefixesFor hs (hall.prefixesFor hp _)
  · exact not_and_or.mp fun ⟨hs, hrun⟩ => hnot ⟨hs, hrun.allIndexBytes hp⟩

/-! ### The row after a run -/

/-- A run of DD and FD bytes is as many M1 fetches. -/
theorem executeRows_indexBytes {n : Nat} {ps vs : List Byte} (hps : ∀ v ∈ ps, isIndexByte v = true)
    {o : Option Index} {s : State} (h : s.BytesAt s.pc (ps ++ vs)) :
    let u := State.opFetch^[ps.length] s
    (∃ o', executeRows exec (n + ps.length) (pageAfter o) s = executeRows exec n (pageAfter o') u) ∧ u.BytesAt u.pc vs := by
  induction ps generalizing o s with
  | nil => exact ⟨⟨o, rfl⟩, h⟩
  | cons p ps ih =>
    obtain ⟨hp, hps⟩ := List.forall_mem_cons.mp hps
    obtain ⟨⟨o', hrun⟩, hb⟩ := ih hps (o := some (indexOf p)) (State.bytesAt_opFetch h)
    obtain ⟨hbyte, -⟩ := h
    refine ⟨⟨o', ?_⟩, hb⟩
    rw [List.length_cons, ← Nat.add_assoc, executeRows_indexByte (hbyte ▸ hp), hbyte, hrun]
    rfl

/-- Before a byte without a row of its own the index register selected is dropped, and the byte is read on the base page (R571). -/
theorem executeRows_ignored {n : Nat} {x : Index} {s : State} {b : Byte} {bs : List Byte} (hb : hasIndexRow b = false)
    (h : s.BytesAt s.pc (b :: bs)) : executeRows exec (n + 1) x.page s = executeRows exec n .base s := by
  obtain ⟨rest, hw⟩ := State.window_of_bytesAt_cons h
  obtain ⟨hdd, hfd⟩ := decode_index_ignored rest hb
  cases x with
  | ix => exact executeRows_prefix (i := .ddIgnored b) (hw ▸ hdd) rfl rfl
  | iy => exact executeRows_prefix (i := .fdIgnored b) (hw ▸ hfd) rfl rfl

/-- What leads from an index byte to a row: an ignored prefix row before a base row, the M1 fetch of ED or CB, or nothing
(R153, R571, R596). -/
theorem executeRows_leadAfterIndex {n : Nat} {x : Index} {i : Instr} {lead : List Byte} (hlead : leadAfterIndex x i = some lead)
    {s : State} (h : s.BytesAt s.pc (lead ++ encode i)) :
    let u := State.opFetch^[lead.length] s
    (∃ k, executeRows exec (n + 2) x.page s = executeRows exec (n + k + 1) i.page u) ∧ u.BytesAt u.pc (encode i) := by
  cases hpage : i.page
  all_goals simp only [leadAfterIndex, hpage, Option.ite_none_right_eq_some, Option.some.injEq, reduceCtorEq] at hlead
  case base =>
    obtain ⟨hhead, rfl⟩ := hlead
    refine ⟨⟨0, ?_⟩, h⟩
    cases hbytes : encode i with
    | nil => simp [hbytes] at hhead
    | cons b bs =>
      rw [hbytes] at h
      exact executeRows_ignored (by simpa [hbytes] using hhead) h
  case ed =>
    subst hlead
    refine ⟨⟨0, ?_⟩, State.bytesAt_opFetch h⟩
    cases x with
    | ix => exact executeRows_prefix_byte (p := .edAfterDd) (fun _ => rfl) rfl rfl h
    | iy => exact executeRows_prefix_byte (p := .edAfterFd) (fun _ => rfl) rfl rfl h
  case dd | fd =>
    obtain ⟨rfl, rfl⟩ := hlead
    exact ⟨⟨1, rfl⟩, h⟩
  case ddcb =>
    obtain ⟨rfl, rfl⟩ := hlead
    exact ⟨⟨0, executeRows_prefix_byte (p := .ddcbPrefix) (fun _ => rfl) rfl rfl h⟩, State.bytesAt_opFetch h⟩
  case fdcb =>
    obtain ⟨rfl, rfl⟩ := hlead
    exact ⟨⟨0, executeRows_prefix_byte (p := .fdcbPrefix) (fun _ => rfl) rfl rfl h⟩, State.bytesAt_opFetch h⟩

/-- Settles O12: the run of index bytes (`executeRows_indexBytes`), the last of them, what leads on to the row
(`executeRows_leadAfterIndex`), and the row; the bound leaves the two rows that may follow the run. -/
theorem stepRunsAfterIndexBytes : Obligations.StepRunsAfterIndexBytes := by
  intro s ps p i lead hs hps hp hlen hwf hi hlead hb
  have h0 : { s with eiBlock := false }.BytesAt s.pc (ps ++ (p :: (lead ++ encode i))) := by
    rw [List.append_assoc] at hb
    exact State.answers_shift (s := s) (u := { s with eiBlock := false }) (n := 0) rfl rfl rfl hb
  obtain ⟨n, hn⟩ : ∃ n, rowLimit = n + 2 + 1 + ps.length := ⟨65534 - ps.length, by unfold rowLimit; omega⟩
  obtain ⟨⟨o, hrun⟩, hlast⟩ := executeRows_indexBytes (n := n + 2 + 1) (o := none) hps h0
  obtain ⟨⟨k, hrow⟩, hbytes⟩ := executeRows_leadAfterIndex (n := n) hlead (State.bytesAt_opFetch hlast)
  have hbyte : _ = p := hlast.1
  rw [step_executes hs, hn]
  refine hrun.trans ?_
  rw [executeRows_indexByte (hbyte ▸ hp), hbyte]
  refine hrow.trans ((executeRows_row hwf hi hbytes).trans ?_)
  rw [Nat.add_comm _ lead.length, Function.iterate_add_apply, Function.iterate_succ_apply']

end Sys2Proof.Machine
end

section
/-! SUPPORT. The DD and FD pages (spec/46_index_pages.md) in the form the result statements have: each operation on an index
register as one list of cycles, for IX and IY at once. -/

namespace Sys2Proof.Machine

/-! ### Both index registers at once -/

/-- The row of the index register chosen, from the operation `f` that its two forms share. -/
theorem exec_pick {x : Index} {i j : Instr} {s u : State} (f : Index → State) (h : f x = u)
    (hi : exec i s = .next (f .ix) := by rfl) (hj : exec j s = .next (f .iy) := by rfl) : exec (x.pick i j) s = .next u := by
  subst h
  cases x with
  | ix => exact hi
  | iy => exact hj

/-! ### A byte at (IX+d) (R572, R573) -/

/-- An (IX+d) form up to its access: d is read, five idle ticks at its address, and WZ is the effective address. -/
theorem State.indexed_ran (s : State) (x : Index) (d : Byte) :
    s.indexed x d = { s.ran 2 (s.cFetch s.pc :: s.cRead 1 (s.pc + 1) :: cIdle (s.pc + 1) 5) with wz := s.ea x d } := by
  have hpc : s.pc + 2 - 1 = s.pc + 1 := by bv_omega
  simp only [State.indexed, State.opFetch_operand, State.ran_internal, State.ran_pc, State.ran_ea, hpc]
  rfl

theorem State.indexed_byteAt (s : State) (x : Index) (d : Byte) (a : Word) : (s.indexed x d).byteAt a = s.reply 2 a :=
  s.indexed_reply x d 0 a

theorem State.indexed_reg (s : State) (x : Index) (d : Byte) (r : Reg8) : (s.indexed x d).reg r = s.reg r := by
  cases r <;> simp [State.reg]

theorem State.indexed_f (s : State) (x : Index) (d : Byte) : (s.indexed x d).f = s.f := by simp [State.f]

/-- The cycles of an (IX+d) form after those that lead to its access. -/
theorem State.indexed_through (s : State) (x : Index) (d : Byte) (cs : List Cycle) :
    (s.indexed x d).through cs =
      { s.ran 2 (s.cFetch s.pc :: s.cRead 1 (s.pc + 1) :: cIdle (s.pc + 1) 5 ++ cs) with wz := s.ea x d } := by
  rw [State.indexed_ran, ← State.ran_through]
  rfl

/-- The access of a form that reads its byte. -/
theorem State.indexed_readAt (s : State) (x : Index) (d : Byte) (a : Word) :
    (s.indexed x d).readAt a =
      { s.ran 2 (s.cFetch s.pc :: s.cRead 1 (s.pc + 1) :: cIdle (s.pc + 1) 5 ++ [s.cRead 2 a]) with wz := s.ea x d } := by
  have hread : (s.indexed x d).cRead 0 a = s.cRead 2 a := by rw [State.cRead, State.indexed_reply]; rfl
  rw [State.readAt_through, State.indexed_through, hread]

/-- The access of a form that only stores its byte. -/
theorem State.indexed_writeAt (s : State) (x : Index) (d : Byte) (a : Word) (v : Byte) :
    (s.indexed x d).writeAt a v =
      { s.ran 2 (s.cFetch s.pc :: s.cRead 1 (s.pc + 1) :: cIdle (s.pc + 1) 5 ++ [cWrite a v]) with
        wz := s.ea x d, mem := s.mem.write a.toNat v } := by
  rw [State.writeAt_through, State.indexed_through, State.indexed_mem]

/-- What a read-modify-write does after its read (R400). -/
theorem State.modifyAt_through (s : State) (a : Word) (g : Byte → Byte) :
    let v := g (s.byteAt a)
    s.modifyAt a g = { (s.readAt a).through (cIdle a 1 ++ [cWrite a v]) with mem := s.mem.write a.toNat v } := by
  intro v
  rw [State.modifyAt, State.internal_through, State.writeAt_through, State.through_through]
  rfl

/-! ### The shared rows -/

theorem State.loadIndexed_ran (s : State) (x : Index) (r : Reg8) (d : Byte) :
    let ea := s.ea x d
    s.loadIndexed x r d =
      { s.ran 2 (s.cFetch s.pc :: s.cRead 1 (s.pc + 1) :: cIdle (s.pc + 1) 5 ++ [s.cRead 2 ea]) with wz := ea }.setReg r
        (s.reply 2 ea) := by
  simp only [State.loadIndexed, State.indexed_wz, State.indexed_readAt, State.indexed_byteAt]

theorem State.storeIndexed_ran (s : State) (x : Index) (d : Byte) (r : Reg8) :
    let ea := s.ea x d
    s.storeIndexed x d r =
      { s.ran 2 (s.cFetch s.pc :: s.cRead 1 (s.pc + 1) :: cIdle (s.pc + 1) 5 ++ [cWrite ea (s.reg r)]) with
        wz := ea, mem := s.mem.write ea.toNat (s.reg r) } := by
  simp only [State.storeIndexed, State.indexed_wz, State.indexed_reg, State.indexed_writeAt]

/-- `LD (IX+d),n`: two idle ticks at the address of n (R576). -/
theorem State.storeIndexedImm_ran (s : State) (x : Index) (d n : Byte) :
    let ea := s.ea x d
    s.storeIndexedImm x d n =
      { s.ran 3 (s.cFetch s.pc :: s.cRead 1 (s.pc + 1) :: s.cRead 2 (s.pc + 2) :: cIdle (s.pc + 2) 2 ++ [cWrite ea n]) with
        wz := ea, mem := s.mem.write ea.toNat n } := by
  have hpc : s.pc + 3 - 1 = s.pc + 2 := by bv_omega
  simp only [State.storeIndexedImm, State.opFetch_operand_operand, State.ran_internal, State.ran_pc, State.ran_ea, hpc,
    State.writeAt_through]
  rw [← State.ran_through]
  rfl

theorem State.aluIndexed_ran (s : State) (x : Index) (o : AluOp) (d : Byte) :
    let ea := s.ea x d
    s.aluIndexed x o d =
      { s.ran 2 (s.cFetch s.pc :: s.cRead 1 (s.pc + 1) :: cIdle (s.pc + 1) 5 ++ [s.cRead 2 ea]) with wz := ea }.setAF
        (aluResult o s.a s.f (s.reply 2 ea)) := by
  simp only [State.aluIndexed, State.indexed_wz, State.indexed_readAt, State.indexed_byteAt]
  rfl

theorem State.incIndexed_ran (s : State) (x : Index) (d : Byte) :
    let ea := s.ea x d
    let v := s.reply 2 ea
    let u := { s.ran 2 (s.cFetch s.pc :: s.cRead 1 (s.pc + 1) :: cIdle (s.pc + 1) 5 ++ [s.cRead 2 ea]) with wz := ea }
    s.incIndexed x d =
      { (u.through (cIdle ea 1 ++ [cWrite ea (v + 1)])).setF (incFlags v s.f) with mem := s.mem.write ea.toNat (v + 1) } := by
  simp only [State.incIndexed, State.incMem, State.modifyAt_through, State.indexed_wz, State.indexed_readAt,
    State.indexed_byteAt, State.indexed_mem, State.indexed_f]
  rfl

theorem State.decIndexed_ran (s : State) (x : Index) (d : Byte) :
    let ea := s.ea x d
    let v := s.reply 2 ea
    let u := { s.ran 2 (s.cFetch s.pc :: s.cRead 1 (s.pc + 1) :: cIdle (s.pc + 1) 5 ++ [s.cRead 2 ea]) with wz := ea }
    s.decIndexed x d =
      { (u.through (cIdle ea 1 ++ [cWrite ea (v - 1)])).setF (decFlags v s.f) with mem := s.mem.write ea.toNat (v - 1) } := by
  simp only [State.decIndexed, State.decMem, State.modifyAt_through, State.indexed_wz, State.indexed_readAt,
    State.indexed_byteAt, State.indexed_mem, State.indexed_f]
  rfl

theorem State.addIdx_ran (s : State) (x : Index) (p : RpX) :
    s.addIdx x p =
      { (s.ran 1 (s.cFetch s.pc :: cIdle (countedIr s.ir) 7)).setF (add16 (s.idx x) (s.rpX x p) s.f).2 with
        wz := s.idx x + 1 }.setIdx x (add16 (s.idx x) (s.rpX x p) s.f).1 := by
  have hsum : s.idx x + s.rpX x p = (add16 (s.idx x) (s.rpX x p) s.f).1 := by rw [add16_eq]
  rw [State.addIdx, State.opFetch_addPair, hsum]

theorem State.stepIdx_ran (s : State) (x : Index) (k : Word) :
    s.stepIdx x k = (s.ran 1 (s.cFetch s.pc :: cIdle (countedIr s.ir) 2)).setIdx x (s.idx x + k) := by
  simp only [State.stepIdx, State.opFetch_ran, State.ran_internal, State.ran_ir, State.ran_idx]
  rfl

theorem State.popIdx_ran (s : State) (x : Index) :
    s.popIdx x = { s.ran 1 [s.cFetch s.pc, s.cRead 1 s.sp, s.cRead 2 (s.sp + 1)] with sp := s.sp + 2 }.setIdx x
      (cat (s.reply 2 (s.sp + 1)) (s.reply 1 s.sp)) := by
  simp only [State.popIdx, State.opFetch_pop, State.opFetch_wordAt, State.opFetch_sp]

theorem State.exchangeTopIdx_ran (s : State) (x : Index) :
    let w := cat (s.reply 2 (s.sp + 1)) (s.reply 1 s.sp)
    s.exchangeTopIdx x =
      { s.ran 1 (s.cFetch s.pc :: s.cRead 1 s.sp :: s.cRead 2 (s.sp + 1) :: cIdle (s.sp + 1) 1
          ++ [cWrite (s.sp + 1) (hi8 (s.idx x)), cWrite s.sp (lo8 (s.idx x))] ++ cIdle s.sp 2) with
        wz := w, mem := (s.mem.write (s.sp + 1).toNat (hi8 (s.idx x))).write s.sp.toNat (lo8 (s.idx x)) }.setIdx x w := by
  have hidx : s.opFetch.idx x = s.idx x := s.ran_idx 1 [s.cFetch s.pc] x
  simp only [State.exchangeTopIdx, hidx, State.opFetch_exchangeTop, State.opFetch_wordAt, State.opFetch_sp]
  cases x <;> rfl

/-! ### The rows -/

/-- Settles O48: the forms on (IX+d) are `State.loadIndexed_ran`, `State.storeIndexed_ran` and `State.storeIndexedImm_ran`, the
forms on a word in memory those of HL, and the rest write their register after their fetches. -/
theorem indexLoads : Obligations.IndexLoads := by
  intro s x
  exact ⟨fun d r => exec_pick (s.loadIndexed · r d) (s.loadIndexed_ran x r d),
    fun d r => exec_pick (s.storeIndexed · d r) (s.storeIndexed_ran x d r),
    fun d n => exec_pick (s.storeIndexedImm · d n) (s.storeIndexedImm_ran x d n),
    fun nn => exec_pick (s.opFetch.operand.operand.setIdx · nn) (congrArg (·.setIdx x nn) s.opFetch_operand_operand),
    fun nn => exec_pick (fun x => s.opFetch.loadWord nn (·.setIdx x ·)) (s.opFetch_loadWord nn (·.setIdx x ·)),
    fun nn => exec_pick (fun x => s.opFetch.storeWord nn (s.idx x)) (s.opFetch_storeWord nn (s.idx x)),
    fun h n => exec_pick (s.opFetch.operand.setHalf · h n) (congrArg (·.setHalf x h n) s.opFetch_operand),
    fun r h => exec_pick (fun x => s.opFetch.setReg (regNoHL r) (s.half x h))
      (congrArg (·.setReg (regNoHL r) (s.half x h)) s.opFetch_ran),
    fun h r => exec_pick (fun x => s.opFetch.setHalf x h (s.regX x r)) (congrArg (·.setHalf x h (s.regX x r)) s.opFetch_ran)⟩

/-- Settles O49: ADD is `State.addIdx_ran`, INC and DEC of a register `State.stepIdx_ran`, the forms on (IX+d)
`State.aluIndexed_ran`, `State.incIndexed_ran` and `State.decIndexed_ran`, and those on a half are one fetch and the operation. -/
theorem indexArithmetic : Obligations.IndexArithmetic := by
  intro s x
  have hdec : s.stepIdx x (-1) = (s.ran 1 (s.cFetch s.pc :: cIdle (countedIr s.ir) 2)).setIdx x (s.idx x - 1) := by
    rw [State.stepIdx_ran, sub_eq_add_neg]
  exact ⟨fun p => exec_pick (s.addIdx · p) (s.addIdx_ran x p),
    exec_pick (s.stepIdx · 1) (s.stepIdx_ran x 1),
    exec_pick (s.stepIdx · (-1)) hdec,
    fun h => exec_pick (fun x => s.opFetch.incBy (s.half x h) (·.setHalf x h ·)) rfl,
    fun h => exec_pick (fun x => s.opFetch.decBy (s.half x h) (·.setHalf x h ·)) rfl,
    fun o h => exec_pick (fun x => s.opFetch.alu o (s.half x h)) rfl,
    fun d => ⟨fun o => exec_pick (s.aluIndexed · o d) (s.aluIndexed_ran x o d),
      exec_pick (s.incIndexed · d) (s.incIndexed_ran x d), exec_pick (s.decIndexed · d) (s.decIndexed_ran x d)⟩⟩

/-- Settles O50: each row is the operation of its HL form after the fetch, on the index register. -/
theorem indexStackAndJumps : Obligations.IndexStackAndJumps := by
  intro s x
  exact ⟨exec_pick (fun x => s.opFetch.pushPair (s.idx x)) (s.opFetch_pushPair (s.idx x)),
    exec_pick s.popIdx (s.popIdx_ran x),
    exec_pick s.exchangeTopIdx (s.exchangeTopIdx_ran x),
    exec_pick (fun x => { s.opFetch with pc := s.idx x }) (congrArg (fun t : State => { t with pc := s.idx x }) s.opFetch_ran),
    exec_pick (fun x => s.opFetch.loadSp (s.idx x)) (s.opFetch_loadSp (s.idx x))⟩

end Sys2Proof.Machine
end

section
/-! SUPPORT. Acceptances, returns and the request latches (spec/60_exceptions.md R652 to R663): what an acceptance leaves for the
return from it, and what each kind of step does to the latches. -/

namespace Sys2Proof.Machine

/-! ### Reset, and the step that executes one row -/

/-- Settles O9: nothing is listed. -/
theorem resetMemoryIsCanonical : Obligations.ResetMemoryIsCanonical := rfl

/-- Settles O10, by `executeRows_last`. -/
theorem stepRunsTheDecodedRow : Obligations.StepRunsTheDecodedRow := by
  intro s i hs hd hi
  rw [step_executes hs]
  exact executeRows_last (s := { s with eiBlock := false }) hd hi

/-! ### Taking an interrupt -/

/-- Settles O53: the step is the acceptance, and what it shares with that of the IRQ is `State.takeInterrupt_through`. -/
theorem nmiAcceptance : Obligations.NmiAcceptance := by
  intro s hnmi pc
  rw [step_nmi hnmi, State.acceptNmi, State.takeInterrupt_through]
  rfl

/-- What an acceptance leaves for the return from it, whichever it is: interrupts disabled with `b` in IFF2, and the address to
return to on top of the stack, which was empty at `sp`. -/
structure State.Entered (b : Bool) (ret sp : Word) (t : State) : Prop where
  iff1 : t.iff1 = false
  iff2 : t.iff2 = b
  halted : t.halted = false
  sp : t.sp = sp - 2
  top : cat (t.mem.read (t.sp + 1).toNat) (t.mem.read t.sp.toNat) = ret

/-- The address the program goes on at, past a HALT (R660). -/
def State.resumePc (s : State) : Word := if s.halted then s.pc + 1 else s.pc

theorem State.takeInterrupt_entered (s : State) (n : Nat) (b : Bool) : (s.takeInterrupt n b).Entered b s.resumePc s.sp := by
  have hhigh : s.sp - 2 + 1 = s.sp - 1 := by bv_omega
  have hne : s.sp - 1 ≠ s.sp - 2 := by bv_omega
  rw [State.takeInterrupt_through]
  refine ⟨rfl, rfl, rfl, rfl, ?_⟩
  simp only [hhigh, Memory.read_write_word, if_neg hne, if_true, cat_hi8_lo8]
  rfl

/-- The jump that ends an acceptance touches none of it. -/
theorem State.Entered.goto {b : Bool} {ret sp : Word} {t : State} (h : t.Entered b ret sp) (a : Word) :
    (t.goto a).Entered b ret sp := by
  obtain ⟨hiff1, hiff2, hhalted, hsp, htop⟩ := h
  exact ⟨hiff1, hiff2, hhalted, hsp, htop⟩

theorem State.Entered.vectorJump {b : Bool} {ret sp : Word} {t : State} (h : t.Entered b ret sp) :
    t.vectorJump.Entered b ret sp := by
  obtain ⟨hiff1, hiff2, hhalted, hsp, htop⟩ := h
  rw [State.vectorJump_through]
  exact ⟨hiff1, hiff2, hhalted, hsp, htop⟩

theorem State.acceptNmi_entered (s : State) : s.acceptNmi.Entered s.iff1 s.resumePc s.sp :=
  (State.takeInterrupt_entered { s with nmiPend := false, eiBlock := false } 5 s.iff1).goto _

theorem State.acceptIrq_entered (s : State) : s.acceptIrq.Entered false s.resumePc s.sp := by
  have h := State.takeInterrupt_entered { s with irqPend := false } 7 false
  by_cases him : s.im = .im2
  · rw [State.acceptIrq_vectored him]
    exact h.vectorJump
  · rw [State.acceptIrq_fixed him]
    exact h.goto _

theorem State.acceptNmi_agent (s : State) : s.acceptNmi.agent = s.agent := by
  simp [State.acceptNmi, State.takeInterrupt_through]

theorem State.acceptIrq_agent (s : State) : s.acceptIrq.agent = s.agent := by
  by_cases him : s.im = .im2
  · simp [State.acceptIrq_vectored him, State.vectorJump, State.takeInterrupt_through]
  · simp [State.acceptIrq_fixed him, State.takeInterrupt_through]

/-! ### Returning from it -/

/-- RETI and RETN after an acceptance pop what it pushed (R457, R458). -/
theorem State.Entered.returns {b : Bool} {ret sp : Word} {t : State} (h : t.Entered b ret sp) :
    let u := t.opFetch.returnFromInterrupt
    (t.agent = .plainMemory → u.pc = ret) ∧ u.sp = sp ∧ u.iff1 = b ∧ u.iff2 = b ∧ u.halted = false := by
  obtain ⟨-, hiff2, hhalted, hsp, htop⟩ := h
  have hback : t.sp + 2 = sp := by bv_omega
  rw [State.returnFromInterrupt_eq, State.opFetch_ran, State.ran_popPc]
  refine ⟨fun hplain => ?_, hback, hiff2, hiff2, hhalted⟩
  simp only [State.reply_plain _ _ hplain, htop]

/-- Settles O57: what an acceptance leaves (`State.acceptNmi_entered`, `State.acceptIrq_entered`) is what the return takes
(`State.Entered.returns`), and a second NMI saves the IFF1 that the first one cleared. -/
theorem returnsFromInterrupts : Obligations.ReturnsFromInterrupts := by
  intro s y pc
  refine ⟨fun hn => ?_, fun hn hi => ?_, fun hn => ?_⟩
  · obtain ⟨hpc, hrest⟩ := s.acceptNmi_entered.returns
    exact ⟨_, _, step_nmi hn, rfl, fun hp => hpc (s.acceptNmi_agent.trans hp), hrest⟩
  · obtain ⟨hpc, hrest⟩ := s.acceptIrq_entered.returns
    exact ⟨_, _, step_irq hn hi, rfl, fun hp => hpc (s.acceptIrq_agent.trans hp), hrest⟩
  · have hfirst := s.acceptNmi_entered
    have hsecond := s.acceptNmi.nmi.acceptNmi_entered
    have hsp : s.acceptNmi.nmi.sp = s.sp - 2 := hfirst.sp
    refine ⟨_, _, step_nmi hn, step_nmi rfl, hsecond.iff1, hsecond.iff2.trans hfirst.iff1, rfl, ?_⟩
    rw [hsecond.sp, hsp]
    bv_omega

/-! ### The request latches -/

/-- An instruction takes no request: neither do its prefix fetches nor its row. -/
theorem step_executes_latches {s t : State} (hs : s.Executes) (ht : step s = .next t) :
    t.nmiPend = s.nmiPend ∧ t.irqPend = s.irqPend := by
  obtain ⟨i, k, hrow⟩ := step_eq_exec hs ht
  have hfetches : (State.opFetch^[k] { s with eiBlock := false }).control = { s with eiBlock := false }.control :=
    iterate_keeps (f := State.opFetch) (g := State.control) (fun _ => rfl) k _
  obtain ⟨u, hu, hnmi, hirq, -⟩ := everyRowCompletesAndKeepsControlBits i (State.opFetch^[k] { s with eiBlock := false })
  cases (hrow.trans hu).symm.trans ht
  exact ⟨hnmi.trans (congrArg Control.nmiPend hfetches), hirq.trans (congrArg Control.irqPend hfetches)⟩

theorem State.acceptNmi_latches (s : State) : s.acceptNmi.nmiPend = false ∧ s.acceptNmi.irqPend = s.irqPend := by
  simp [State.acceptNmi, State.takeInterrupt_through]

theorem State.acceptIrq_latches (s : State) : s.acceptIrq.nmiPend = s.nmiPend ∧ s.acceptIrq.irqPend = false := by
  by_cases him : s.im = .im2
  · simp [State.acceptIrq_vectored him, State.vectorJump, State.takeInterrupt_through]
  · simp [State.acceptIrq_fixed him, State.takeInterrupt_through]

/-- After any step NMI_PEND is clear, and IRQ_PEND is as before unless the step accepted it (R653, R655). -/
theorem step_latches {s t : State} (ht : step s = .next t) :
    t.nmiPend = false ∧ t.irqPend = (s.irqPend && (s.nmiPend || !s.irqRecognised)) := by
  cases hn : s.nmiPend with
  | true =>
    cases (step_nmi hn).symm.trans ht
    simpa using s.acceptNmi_latches
  | false =>
    cases hi : s.irqRecognised with
    | true =>
      cases (step_irq hn hi).symm.trans ht
      simpa [hn] using s.acceptIrq_latches
    | false =>
      cases hh : s.halted with
      | true =>
        cases (step_halted hn hi hh).symm.trans ht
        exact ⟨hn, (Bool.and_true _).symm⟩
      | false =>
        obtain ⟨hnmi, hirq⟩ := step_executes_latches ⟨hn, hi, hh⟩ ht
        exact ⟨hnmi.trans hn, hirq.trans (Bool.and_true _).symm⟩

/-- Settles O58, by `step_latches`. -/
theorem requestsStayPending : Obligations.RequestsStayPending := by
  intro s t ht
  obtain ⟨hnmi, hirq⟩ := step_latches ht
  refine ⟨fun hpend hnot => ?_, fun hpend => by rw [hirq, hpend, Bool.false_and], hnmi, rfl, rfl⟩
  obtain hnot | hnot := hnot <;> simp [hirq, hpend, hnot]

end Sys2Proof.Machine
end

section
/-! SUPPORT. The DDCB and FDCB pages (spec/47_index_cb_page.md) in the form the result statements have: the access of a byte at
(IX+d) behind the reads of d and op as one list of cycles, for IX and IY at once. -/

namespace Sys2Proof.Machine

/-- Up to the access: d and op are plain reads, two idle ticks at the address of op, and WZ is the effective address (R620). -/
theorem State.indexedCb_through (s : State) (x : Index) (d : Byte) :
    s.indexedCb x d =
      { s.through (s.cRead 0 s.pc :: s.cRead 1 (s.pc + 1) :: cIdle (s.pc + 1) 2) with pc := s.pc + 2, wz := s.ea x d } := by
  have hpc : s.pc + 2 - 1 = s.pc + 1 := by bv_omega
  have hop : s.operand.operand = { s.through [s.cRead 0 s.pc, s.cRead 1 (s.pc + 1)] with pc := s.pc + 2 } := by
    rw [show s.pc + 2 = s.pc + 1 + 1 by bv_omega]
    rfl
  simp only [State.indexedCb, hop, hpc, State.internal_through]
  rw [show s.cRead 0 s.pc :: s.cRead 1 (s.pc + 1) :: cIdle (s.pc + 1) 2
    = [s.cRead 0 s.pc, s.cRead 1 (s.pc + 1)] ++ cIdle (s.pc + 1) 2 from rfl, ← State.through_through]
  cases x <;> rfl

/-- The state in which the byte at (IX+d) has been read, with the idle tick after it (R620). -/
def State.accessCb (s : State) (x : Index) (d : Byte) : State :=
  let ea := s.ea x d
  { s.through (s.cRead 0 s.pc :: s.cRead 1 (s.pc + 1) :: cIdle (s.pc + 1) 2 ++ s.cRead 2 ea :: cIdle ea 1) with
    pc := s.pc + 2, wz := ea }

theorem State.indexedCb_access (s : State) (x : Index) (d : Byte) :
    ((s.indexedCb x d).readAt (s.ea x d)).internal (s.ea x d) 1 = s.accessCb x d := by
  rw [State.indexedCb_through, State.internal_through, State.accessCb, ← State.through_through]
  rfl

theorem State.indexedCb_byteAt (s : State) (x : Index) (d : Byte) (a : Word) : (s.indexedCb x d).byteAt a = s.reply 2 a := by
  rw [State.indexedCb_through]
  rfl

theorem State.indexedCb_f (s : State) (x : Index) (d : Byte) : (s.indexedCb x d).f = s.f := by
  rw [State.indexedCb_through]
  rfl

/-- And in which a byte has been stored back there. -/
def State.storeCb (s : State) (x : Index) (d w : Byte) : State :=
  let ea := s.ea x d
  { (s.accessCb x d).through [cWrite ea w] with mem := s.mem.write ea.toNat w }

theorem State.indexedCb_modifyAt (s : State) (x : Index) (d : Byte) (g : Byte → Byte) :
    (s.indexedCb x d).modifyAt (s.ea x d) g = s.storeCb x d (g (s.reply 2 (s.ea x d))) := by
  rw [State.modifyAt, State.indexedCb_access, State.indexedCb_byteAt, State.writeAt_through]
  rfl

/-! ### The shared rows -/

theorem State.rotIndexed_eq (s : State) (x : Index) (o : RotOp) (d : Byte) :
    let v := s.reply 2 (s.ea x d)
    let w := rotRes o (carryOf s.f) v
    s.rotIndexed x o d = (s.storeCb x d w).setF (rotFlags w (rotOut o v)) := by
  simp only [State.rotIndexed, State.rotMem, State.indexedCb_wz, State.indexedCb_modifyAt, State.indexedCb_byteAt,
    State.indexedCb_f]

theorem State.rotIndexedCopy_eq (s : State) (x : Index) (o : RotOp) (d : Byte) (r : Reg8) :
    s.rotIndexedCopy x o d r = (s.rotIndexed x o d).setReg r (rotRes o (carryOf s.f) (s.reply 2 (s.ea x d))) := by
  simp only [State.rotIndexedCopy, State.rotIndexed, State.indexedCb_wz, State.indexedCb_byteAt, State.indexedCb_f]

theorem State.changeIndexed_eq (s : State) (x : Index) (d : Byte) (g : Byte → Byte) :
    s.changeIndexed x d g = s.storeCb x d (g (s.reply 2 (s.ea x d))) := by
  simp only [State.changeIndexed, State.indexedCb_wz, State.indexedCb_modifyAt]

theorem State.changeIndexedCopy_eq (s : State) (x : Index) (d : Byte) (g : Byte → Byte) (r : Reg8) :
    let w := g (s.reply 2 (s.ea x d))
    s.changeIndexedCopy x d g r = (s.storeCb x d w).setReg r w := by
  simp only [State.changeIndexedCopy, State.indexedCb_wz, State.indexedCb_modifyAt, State.indexedCb_byteAt]

theorem State.bitIndexed_eq (s : State) (x : Index) (d : Byte) (b : BitVec 3) :
    s.bitIndexed x d b = (s.accessCb x d).setF (bitFlags b (s.reply 2 (s.ea x d)) (hi8 (s.ea x d)) s.f) := by
  simp only [State.bitIndexed, State.indexedCb_wz, State.indexedCb_access, State.indexedCb_byteAt, State.indexedCb_f]

/-! ### The rows -/

/-- Settles O51: the rows of an operation share its meaning, `State.rotIndexed_eq`, `State.changeIndexed_eq` and their copies, or
`State.bitIndexed_eq` with the flags of `bitFlags_eq`. -/
theorem indexCbPageRows : Obligations.IndexCbPageRows := by
  intro s x d ea v u stored
  refine ⟨fun o => ⟨?_, fun r => ?_⟩, fun b z => ?_, fun b => ⟨?_, fun r => ?_⟩, fun b => ⟨?_, fun r => ?_⟩⟩
  · exact exec_pick (s.rotIndexed · o d) (s.rotIndexed_eq x o d) (by cases o <;> rfl) (by cases o <;> rfl)
  · exact exec_pick (s.rotIndexedCopy · o d r) ((s.rotIndexedCopy_eq x o d r).trans (by rw [s.rotIndexed_eq]; rfl))
      (by cases o <;> rfl) (by cases o <;> rfl)
  · exact exec_pick (s.bitIndexed · d b) ((s.bitIndexed_eq x d b).trans (by rw [bitFlags_eq]; rfl))
  · exact exec_pick (s.changeIndexed · d (resBit b)) (s.changeIndexed_eq x d (resBit b))
  · exact exec_pick (s.changeIndexedCopy · d (resBit b) r) (s.changeIndexedCopy_eq x d (resBit b) r)
  · exact exec_pick (s.changeIndexed · d (setBit b)) (s.changeIndexed_eq x d (setBit b))
  · exact exec_pick (s.changeIndexedCopy · d (setBit b) r) (s.changeIndexedCopy_eq x d (setBit b) r)

end Sys2Proof.Machine
end

section
/-! SUPPORT. Results and time (spec/70_reset_and_hazards.md R712): nothing but T and the bus trace is computed from T and the bus
trace. The field lemmas of Laws/State.lean say what each shared operation computes, and none of them looks at T or the trace. -/

namespace Sys2Proof.Machine

/-! ### One state at two times -/

/-- The state at another T, with another bus trace. -/
@[simps] def State.timed (s : State) (n : Nat) (es : List BusEvent) : State := { s with t := n, bus := es }

/-- What a state is apart from time. -/
@[simp] def State.untimed (s : State) : State := { s with t := 0, bus := [] }

/-- States that agree apart from time are one state at two times. -/
theorem State.eq_timed {s s' : State} (h : s'.untimed = s.untimed) : s' = s.timed s'.t s'.bus :=
  congrArg (fun u => u.timed s'.t s'.bus) h

/-- What the function leaves, T and the trace set aside, is the same whenever it starts. -/
def Timeless (f : State → State) : Prop := ∀ s n es, (f (s.timed n es)).untimed = (f s).untimed

theorem Timeless.timed {f : State → State} (hf : Timeless f) (s : State) (n : Nat) (es : List BusEvent) :
    ∃ m fs, f (s.timed n es) = (f s).timed m fs := ⟨_, _, State.eq_timed (hf s n es)⟩

/-! ### What a meaning reads, field by field

A value is the same at both times when the fields it is read from are. -/

@[simp] theorem State.a_eq (s : State) : s.a = hi8 s.af := rfl
@[simp] theorem State.f_eq (s : State) : s.f = lo8 s.af := rfl
@[simp] theorem State.b_eq (s : State) : s.b = hi8 s.bc := rfl
@[simp] theorem State.c_eq (s : State) : s.c = lo8 s.bc := rfl
@[simp] theorem State.i_eq (s : State) : s.i = hi8 s.ir := rfl
@[simp] theorem State.r_eq (s : State) : s.r = lo8 s.ir := rfl
@[simp] theorem State.reply_eq (s : State) (k : Nat) (a : Word) : s.reply k a = memoryReply s.agent s.mem (s.draws + k) a := rfl
@[simp] theorem State.byteAt_eq (s : State) (a : Word) : s.byteAt a = s.reply 0 a := rfl
@[simp] theorem State.wordAt_eq (s : State) (a : Word) : s.wordAt a = cat (s.reply 1 (a + 1)) (s.reply 0 a) := rfl
@[simp] theorem State.portByte_eq (s : State) (p : Word) : s.portByte p = Config.portAnswer s.draws p := rfl

namespace Timeless

variable {f g : State → State}

/-! ### A value put into a register, and a branch -/

/-- A value that does not depend on time, put by `k` where `f` leaves off. -/
theorem bind {α : Type} {k : State → α → State} {v : State → α} (hk : ∀ a, Timeless (k · a)) (hf : Timeless f)
    (hv : ∀ s n es, v (s.timed n es) = v s) : Timeless fun s => k (f s) (v s) := by
  intro s n es
  obtain ⟨m, fs, hm⟩ := hf.timed s n es
  simp only [hm, hv]
  exact hk _ _ _ _

theorem putReg (r : Reg8) (v : Byte) : Timeless (·.setReg r v) := fun _ _ _ => by cases r <;> rfl
theorem putHalf (x : Index) (h : Half) (v : Byte) : Timeless (·.setHalf x h v) := fun _ _ _ => by cases x <;> cases h <;> rfl
theorem putIdx (x : Index) (w : Word) : Timeless (·.setIdx x w) := fun _ _ _ => by cases x <;> rfl
theorem putRp (p : Rp) (w : Word) : Timeless (·.setRp p w) := fun _ _ _ => by cases p <;> rfl
theorem putRp2 (p : Rp2) (w : Word) : Timeless (·.setRp2 p w) := fun _ _ _ => by cases p <;> rfl

theorem setReg {v : State → Byte} {r : Reg8} (hf : Timeless f) (hv : ∀ s n es, v (s.timed n es) = v s) :
    Timeless fun s => (f s).setReg r (v s) := .bind (k := (·.setReg r ·)) (putReg r) hf hv

theorem ite {p : State → Prop} [∀ s, Decidable (p s)] (hp : ∀ s n es, p (s.timed n es) ↔ p s) (hf : Timeless f)
    (hg : Timeless g) : Timeless fun s => if p s then f s else g s := by
  intro s n es
  by_cases h : p s
  · simpa only [h, (hp s n es).2 h, if_true] using hf s n es
  · simpa only [h, mt (hp s n es).1 h, if_false] using hg s n es

/-! ### Shared meanings -/

/-- The loads of a word from memory, whichever register `put` writes (R214, R464, R577). -/
theorem loadWord (a : Word) {put : State → Word → State} (hput : ∀ w, Timeless (put · w)) :
    Timeless (·.opFetch.loadWord a put) :=
  .bind hput (f := fun s => { s.opFetch.operand.operand.readWordAt a with wz := a + 1 }) (by simp [Timeless]) (by simp)

/-- JP cc: the condition chooses PC (R341). -/
theorem jumpIf (cc : Cond) (nn : Word) :
    Timeless fun s => let t := s.opFetch.operand.operand; { t with wz := nn, pc := if cc.holds t.f then nn else t.pc } :=
  .bind (k := fun t (taken : Bool) => { t with wz := nn, pc := if taken then nn else t.pc }) (by simp [Timeless])
    (f := (·.opFetch.operand.operand)) (by simp [Timeless]) (v := fun s => cc.holds s.opFetch.operand.operand.f) (by simp)

theorem aluReg (o : AluOp) (r : Reg8) : Timeless (·.aluReg o r) := by simp [Timeless, State.aluReg, State.alu, State.reg]
theorem aluIndHl (o : AluOp) : Timeless (·.aluIndHl o) := by simp [Timeless, State.aluIndHl, State.alu]
theorem aluImm (o : AluOp) (v : Byte) : Timeless (·.aluImm o v) := by simp [Timeless, State.aluImm, State.alu]
theorem rotA (o : RotOp) : Timeless (·.rotA o) := by simp [Timeless, State.rotA]
theorem rotReg (o : RotOp) (r : Reg8) : Timeless (·.rotReg o r) :=
  setReg (by simp [Timeless, State.reg]) (by simp [State.reg])
theorem rotIndHl (o : RotOp) : Timeless (·.rotIndHl o) := by simp [Timeless, State.rotIndHl, State.rotMem]

theorem storeIndexed (x : Index) (d : Byte) (r : Reg8) : Timeless (·.storeIndexed x d r) := by
  cases x <;> simp [Timeless, State.storeIndexed, State.reg, State.indexed_wz, State.ea, State.idx]

theorem storeIndexedImm (x : Index) (d v : Byte) : Timeless (·.storeIndexedImm x d v) := by
  cases x <;> simp [Timeless, State.storeIndexedImm, State.ea, State.idx]

theorem loadIndexed (x : Index) (r : Reg8) (d : Byte) : Timeless (·.loadIndexed x r d) := by
  cases x <;> exact setReg (by simp [Timeless, State.indexed_wz, State.ea, State.idx])
    (by simp [State.indexed_wz, State.ea, State.idx])

theorem aluIndexed (x : Index) (o : AluOp) (d : Byte) : Timeless (·.aluIndexed x o d) := by
  cases x <;> simp [Timeless, State.aluIndexed, State.alu, State.indexed_wz, State.ea, State.idx]

theorem incIndexed (x : Index) (d : Byte) : Timeless (·.incIndexed x d) := by
  cases x <;> simp [Timeless, State.incIndexed, State.incMem, State.indexed_wz, State.ea, State.idx]

theorem decIndexed (x : Index) (d : Byte) : Timeless (·.decIndexed x d) := by
  cases x <;> simp [Timeless, State.decIndexed, State.decMem, State.indexed_wz, State.ea, State.idx]

theorem addIdx (x : Index) (p : RpX) : Timeless (·.addIdx x p) := by
  cases x <;> simp [Timeless, State.addIdx, State.addPair, State.rpX, State.idx, State.setIdx]

theorem stepIdx (x : Index) (k : Word) : Timeless (·.stepIdx x k) := by
  cases x <;> simp [Timeless, State.stepIdx, State.idx, State.setIdx]

theorem popIdx (x : Index) : Timeless (·.popIdx x) := by cases x <;> simp [Timeless, State.popIdx, State.setIdx]

theorem exchangeTopIdx (x : Index) : Timeless (·.exchangeTopIdx x) := by
  cases x <;> simp [Timeless, State.exchangeTopIdx, State.idx, State.setIdx]

theorem rotIndexed (x : Index) (o : RotOp) (d : Byte) : Timeless (·.rotIndexed x o d) := by
  cases x <;> simp [Timeless, State.rotIndexed, State.rotMem, State.indexedCb, State.ea, State.idx]

theorem changeIndexed (x : Index) (d : Byte) (g : Byte → Byte) : Timeless (·.changeIndexed x d g) := by
  cases x <;> simp [Timeless, State.changeIndexed, State.indexedCb, State.ea, State.idx]

theorem bitIndexed (x : Index) (d : Byte) (b : BitVec 3) : Timeless (·.bitIndexed x d b) := by
  cases x <;> simp [Timeless, State.bitIndexed, State.indexedCb, State.ea, State.idx]

theorem rotIndexedCopy (x : Index) (o : RotOp) (d : Byte) (r : Reg8) : Timeless (·.rotIndexedCopy x o d r) :=
  setReg (rotIndexed x o d) (by cases x <;> simp [State.indexedCb, State.ea, State.idx])

theorem changeIndexedCopy (x : Index) (d : Byte) (g : Byte → Byte) (r : Reg8) : Timeless (·.changeIndexedCopy x d g r) :=
  setReg (changeIndexed x d g) (by cases x <;> simp [State.indexedCb, State.ea, State.idx])

theorem ldBlock (k : Word) : Timeless (·.ldBlock k) := by simp [Timeless, State.ldBlock]
theorem cpBlock (k : Word) : Timeless (·.cpBlock k) := by simp [Timeless, State.cpBlock, State.cpBlockCore]
theorem inBlock (k : Word) : Timeless (·.inBlock k) := by simp [Timeless, State.inBlock]
theorem outBlock (k : Word) : Timeless (·.outBlock k) := by simp [Timeless, State.outBlock]

theorem ldBlockRepeat (k : Word) : Timeless (·.ldBlockRepeat k) :=
  ite (by simp [State.ldBlock]) (ldBlock k) (by simp [Timeless, State.repeatAt, State.ldBlock])

theorem cpBlockRepeat (k : Word) : Timeless (·.cpBlockRepeat k) :=
  ite (by simp [State.cpBlockCore]) (cpBlock k) (by simp [Timeless, State.repeatAt, State.cpBlockCore])

theorem inBlockRepeat (k : Word) : Timeless (·.inBlockRepeat k) :=
  ite (by simp [State.inBlock]) (inBlock k) (by simp [Timeless, State.repeatAt, State.inBlock])

theorem outBlockRepeat (k : Word) : Timeless (·.outBlockRepeat k) :=
  ite (by simp [State.outBlock]) (outBlock k) (by simp [Timeless, State.repeatAt, State.outBlock])

end Timeless

/-- Every row is a function of the state that does not look at time. -/
theorem exec_timeless (i : Instr) : ∃ f, (∀ s, exec i s = .next (f s)) ∧ Timeless f := by
  cases i with
  -- a value put into a register
  | ldRR _ _ | ldRN _ _ | ldRIndHl _ | incR _ | decR _ | inRC _ | ldRIxHalf _ _ | ldRIyHalf _ _ | resBR _ _ | setBR _ _ =>
    exact ⟨_, fun _ => rfl, .setReg (by simp [Timeless, State.reg]) (by simp [State.reg, State.half, State.idx])⟩
  | incIxHalf _ | decIxHalf _ | incIyHalf _ | decIyHalf _ | ldIxHalfN _ _ | ldIyHalfN _ _ | ldIxHalfR _ _ | ldIyHalfR _ _ =>
    exact ⟨_, fun _ => rfl, .bind (k := (·.setHalf _ _ ·)) (.putHalf _ _) (by simp [Timeless, State.half, State.idx])
      (by simp [State.half, State.regX, State.idx])⟩
  | ldRpNn _ _ | incRp _ | decRp _ =>
    exact ⟨_, fun _ => rfl, .bind (k := (·.setRp _ ·)) (.putRp _) (by simp [Timeless]) (by simp [State.rp])⟩
  | ldHlIndNn a => exact ⟨_, fun _ => rfl, .loadWord a (.putRp .hl)⟩
  | ldRpIndNn p a => exact ⟨_, fun _ => rfl, .loadWord a (.putRp p)⟩
  | ldIxIndNn a => exact ⟨_, fun _ => rfl, .loadWord a (.putIdx .ix)⟩
  | ldIyIndNn a => exact ⟨_, fun _ => rfl, .loadWord a (.putIdx .iy)⟩
  | popRp2 _ => exact ⟨_, fun _ => rfl, .bind (k := (·.setRp2 _ ·)) (.putRp2 _) (by simp [Timeless]) (by simp)⟩
  -- shared meanings
  | addAR r | adcAR r | subR r | sbcAR r | andR r | xorR r | orR r | cpR r => exact ⟨_, fun _ => rfl, .aluReg _ r⟩
  | addAIndHl | adcAIndHl | subIndHl | sbcAIndHl | andIndHl | xorIndHl | orIndHl | cpIndHl =>
    exact ⟨_, fun _ => rfl, .aluIndHl _⟩
  | addAN v | adcAN v | subN v | sbcAN v | andN v | xorN v | orN v | cpN v => exact ⟨_, fun _ => rfl, .aluImm _ v⟩
  | rlca | rrca | rla | rra => exact ⟨_, fun _ => rfl, .rotA _⟩
  | rlcR r | rrcR r | rlR r | rrR r | slaR r | sraR r | sllR r | srlR r => exact ⟨_, fun _ => rfl, .rotReg _ r⟩
  | rlcIndHl | rrcIndHl | rlIndHl | rrIndHl | slaIndHl | sraIndHl | sllIndHl | srlIndHl => exact ⟨_, fun _ => rfl, .rotIndHl _⟩
  | ldi | ldd => exact ⟨_, fun _ => rfl, .ldBlock _⟩
  | cpi | cpd => exact ⟨_, fun _ => rfl, .cpBlock _⟩
  | ini | ind => exact ⟨_, fun _ => rfl, .inBlock _⟩
  | outi | outd => exact ⟨_, fun _ => rfl, .outBlock _⟩
  | ldir | lddr => exact ⟨_, fun _ => rfl, .ldBlockRepeat _⟩
  | cpir | cpdr => exact ⟨_, fun _ => rfl, .cpBlockRepeat _⟩
  | inir | indr => exact ⟨_, fun _ => rfl, .inBlockRepeat _⟩
  | otir | otdr => exact ⟨_, fun _ => rfl, .outBlockRepeat _⟩
  | ldIndIxDR d r | ldIndIyDR d r => exact ⟨_, fun _ => rfl, .storeIndexed _ d r⟩
  | ldIndIxDN d v | ldIndIyDN d v => exact ⟨_, fun _ => rfl, .storeIndexedImm _ d v⟩
  | ldRIndIxD r d | ldRIndIyD r d => exact ⟨_, fun _ => rfl, .loadIndexed _ r d⟩
  | aluIndIxD o d | aluIndIyD o d => exact ⟨_, fun _ => rfl, .aluIndexed _ o d⟩
  | incIndIxD d | incIndIyD d => exact ⟨_, fun _ => rfl, .incIndexed _ d⟩
  | decIndIxD d | decIndIyD d => exact ⟨_, fun _ => rfl, .decIndexed _ d⟩
  | addIxRp p | addIyRp p => exact ⟨_, fun _ => rfl, .addIdx _ p⟩
  | incIx | decIx | incIy | decIy => exact ⟨_, fun _ => rfl, .stepIdx _ _⟩
  | popIx | popIy => exact ⟨_, fun _ => rfl, .popIdx _⟩
  | exIndSpIx | exIndSpIy => exact ⟨_, fun _ => rfl, .exchangeTopIdx _⟩
  | rlcIx d | rrcIx d | rlIx d | rrIx d | slaIx d | sraIx d | sllIx d | srlIx d | rlcIy d | rrcIy d | rlIy d | rrIy d | slaIy d
  | sraIy d | sllIy d | srlIy d => exact ⟨_, fun _ => rfl, .rotIndexed _ _ d⟩
  | rlcIxR d r | rrcIxR d r | rlIxR d r | rrIxR d r | slaIxR d r | sraIxR d r | sllIxR d r | srlIxR d r | rlcIyR d r
  | rrcIyR d r | rlIyR d r | rrIyR d r | slaIyR d r | sraIyR d r | sllIyR d r | srlIyR d r =>
    exact ⟨_, fun _ => rfl, .rotIndexedCopy _ _ d r⟩
  | bitIx d b _ | bitIy d b _ => exact ⟨_, fun _ => rfl, .bitIndexed _ d b⟩
  | resIx d _ | setIx d _ | resIy d _ | setIy d _ => exact ⟨_, fun _ => rfl, .changeIndexed _ d _⟩
  | resIxR d _ r | setIxR d _ r | resIyR d _ r | setIyR d _ r => exact ⟨_, fun _ => rfl, .changeIndexedCopy _ d _ r⟩
  -- branches
  | jpCcNn cc nn => exact ⟨_, fun _ => rfl, .jumpIf cc nn⟩
  | jrCc _ _ => exact ⟨_, fun _ => rfl, .ite (by simp) (by simp [Timeless, State.jumpRel]) (by simp [Timeless])⟩
  | djnz _ => exact ⟨_, fun _ => rfl, .ite (by simp) (by simp [Timeless]) (by simp [Timeless, State.jumpRel])⟩
  | callCcNn _ _ => exact ⟨_, fun _ => rfl, .ite (by simp) (by simp [Timeless, State.callTo]) (by simp [Timeless])⟩
  | retCc _ => exact ⟨_, fun _ => rfl, .ite (by simp) (by simp [Timeless]) (by simp [Timeless])⟩
  -- the rest, field by field
  | jr _ => exact ⟨_, fun _ => rfl, by simp [Timeless, State.jumpRel]⟩
  | callNn _ => exact ⟨_, fun _ => rfl, by simp [Timeless, State.callTo]⟩
  | reti | retn _ => exact ⟨_, fun _ => rfl, by simp [Timeless, State.returnFromInterrupt]⟩
  | addHlRp _ => exact ⟨_, fun _ => rfl, by simp [Timeless, State.addPair, State.rp]⟩
  | adcHlRp _ | sbcHlRp _ => exact ⟨_, fun _ => rfl, by simp [Timeless, State.rp]⟩
  | ldIndRpA _ | ldAIndRp _ => exact ⟨_, fun _ => rfl, by simp [Timeless, State.bcDe]⟩
  | ldIndHlR _ | bitBR _ _ | outCR _ => exact ⟨_, fun _ => rfl, by simp [Timeless, State.reg]⟩
  | ldIndNnHl _ | ldIndNnRp _ _ => exact ⟨_, fun _ => rfl, by simp [Timeless, State.storeWord, State.rp]⟩
  | ldIndNnIx _ | ldIndNnIy _ => exact ⟨_, fun _ => rfl, by simp [Timeless, State.storeWord, State.idx]⟩
  | incIndHl | decIndHl => exact ⟨_, fun _ => rfl, by simp [Timeless, State.incMem, State.decMem]⟩
  | ldSpHl | ldSpIx | ldSpIy => exact ⟨_, fun _ => rfl, by simp [Timeless, State.loadSp, State.idx]⟩
  | pushRp2 _ | pushIx | pushIy => exact ⟨_, fun _ => rfl, by simp [Timeless, State.pushPair, State.rp2, State.idx]⟩
  | ldAI | ldAR => exact ⟨_, fun _ => rfl, by simp [Timeless, State.loadAir]⟩
  | rrd | rld => exact ⟨_, fun _ => rfl, by simp [Timeless, State.digitRotate]⟩
  | ldIxNn _ | ldIyNn _ => exact ⟨_, fun _ => rfl, by simp [Timeless, State.setIdx]⟩
  | aluIxHalf _ _ | aluIyHalf _ _ => exact ⟨_, fun _ => rfl, by simp [Timeless, State.alu, State.half, State.idx]⟩
  | jpIndIx | jpIndIy => exact ⟨_, fun _ => rfl, by simp [Timeless, State.idx]⟩
  | nop | cbPrefix | ddPrefix | edPrefix | fdPrefix | nopEd _ | noni _ | ddcbPrefix | rePrefixDd _ | edAfterDd | fdcbPrefix
  | rePrefixFd _ | edAfterFd | ddIgnored _ | fdIgnored _ | ldIndHlN _ | ldIndNnA _ | ldAIndNn _ | exAfAf | exx | exDeHl
  | exIndSpHl | ldIA | ldRA | neg _ | daa | cpl | scf | ccf | bitBIndHl _ | resBIndHl _ | setBIndHl _ | halt | di | ei | im _
  | jpNn _ | jpIndHl | rst _ | ret | outNA _ | inAN _ | inC | outC0 => exact ⟨_, fun _ => rfl, by simp [Timeless]⟩

/-! ### The step -/

theorem acceptNmi_timeless : Timeless State.acceptNmi := by simp [Timeless, State.acceptNmi, State.takeInterrupt_through]

theorem acceptIrq_timeless : Timeless State.acceptIrq := by
  intro s n es
  by_cases him : s.im = .im2
  · rw [State.acceptIrq_vectored him, State.acceptIrq_vectored (s := s.timed n es) him]
    simp [State.vectorJump, State.takeInterrupt_through]
  · rw [State.acceptIrq_fixed him, State.acceptIrq_fixed (s := s.timed n es) him]
    simp [State.takeInterrupt_through]

theorem haltWait_timeless : Timeless State.haltWait := by simp [Timeless, State.haltWait, State.haltedCycle]

/-- Row after row: the same rows at both times, since the bytes the decoder looks at are the same. -/
theorem executeRows_timed {k : Nat} {pg : Page} {s u : State} (h : executeRows exec k pg s = .next u) (n : Nat)
    (es : List BusEvent) : ∃ m fs, executeRows exec k pg (s.timed n es) = .next (u.timed m fs) := by
  induction k generalizing pg s n es with
  | zero => exact nomatch h
  | succ k ih =>
    cases hd : decode pg s.window with
    | error e => simp [executeRows, hd] at h
    | ok i =>
      have hd' : decode pg (s.timed n es).window = .ok i := hd
      obtain ⟨f, hx, hf⟩ := exec_timeless i
      obtain ⟨m, fs, hm⟩ := hf.timed s n es
      cases hi : i.selects with
      | none =>
        rw [executeRows_last hd hi, hx] at h
        cases h
        exact ⟨m, fs, by rw [executeRows_last hd' hi, hx, hm]⟩
      | some pg' =>
        rw [executeRows_prefix hd hi (hx s)] at h
        rw [executeRows_prefix hd' hi (hx _), hm]
        exact ih h m fs

/-- A step that is the same timeless function at both times. -/
theorem step_timed_of {f : State → State} (hf : Timeless f) {s u : State} {n : Nat} {es : List BusEvent}
    (hs : step s = .next (f s)) (ht : step (s.timed n es) = .next (f (s.timed n es))) (h : step s = .next u) :
    ∃ m fs, step (s.timed n es) = .next (u.timed m fs) := by
  cases hs.symm.trans h
  obtain ⟨m, fs, hm⟩ := hf.timed s n es
  exact ⟨m, fs, ht.trans (next_congr hm)⟩

/-- Settles O21: which case of R653 a step is does not depend on T, and neither does what an acceptance, a halted cycle or the rows
of an instruction (`executeRows_timed`) leave. -/
theorem resultsDoNotDependOnTime : Obligations.ResultsDoNotDependOnTime := by
  intro s u n es h
  change ∃ m fs, step (s.timed n es) = .next (u.timed m fs)
  cases hn : s.nmiPend with
  | true => exact step_timed_of acceptNmi_timeless (step_nmi hn) (step_nmi hn) h
  | false =>
    cases hi : s.irqRecognised with
    | true => exact step_timed_of acceptIrq_timeless (step_irq hn hi) (step_irq hn hi) h
    | false =>
      cases hh : s.halted with
      | true => exact step_timed_of haltWait_timeless (step_halted hn hi hh) (step_halted hn hi hh) h
      | false =>
        rw [step_executes ⟨hn, hi, hh⟩] at h
        rw [step_executes (s := s.timed n es) ⟨hn, hi, hh⟩]
        exact executeRows_timed h n es

end Sys2Proof.Machine
end
